-- ==== Sys2Proof/Word.lean ====
section
/-! DEFINITION. Bytes and 32-bit words: what the spec treats as bits (00_scope.md R8). -/

namespace Sys2Proof

/-- A byte is 8 bits (R8). -/
abbrev Byte := BitVec 8

/-- The host bus and every register are 32 bits wide (20_memory.md R82). -/
abbrev Word := BitVec 32

/-- A byte offset in the register window (20_memory.md R80). -/
abbrev Offset := BitVec 12

/-- Index of a stream buffer (10_state.md R48). -/
abbrev BufIdx := Fin 2

/-- Index of a byte of a sector or of a buffer (00_scope.md R5: SECTOR = 512). -/
abbrev SectorIdx := Fin 512

end Sys2Proof
end

