-- ==== Sys2Proof/Syntax.lean ====
section
/-! DEFINITION. The twelve commands of spec/opcode_table.json, one constructor a row, with the operand
fields of 30_encoding.md R111. The ratio is a count and the sample an integer, as R111 reads them
(`zext_16`, `sext_16`); their ranges are checked in WellFormed.lean. -/

namespace Sys2Proof

inductive Instr where
  /-- MOD_INIT R, S (40_modulator.md R141). `ssel = true` selects S = 16000. -/
  | modInit (r : Nat) (ssel : Bool)
  /-- MOD_PRIME (R142). -/
  | modPrime
  /-- MOD_SAMPLE s (R143). -/
  | modSample (smp : Int)
  /-- MOD_STEP s, E (R144). -/
  | modStep (smp : Int) (e : Bool)
  /-- MOD_END (R145). -/
  | modEnd
  /-- XPT_CS c (41_transport.md R190). -/
  | xptCs (c : Bool)
  /-- XPT_XFER t (R191). -/
  | xptXfer (t : Byte)
  /-- BSC_INIT (42_storage.md R214). -/
  | bscInit
  /-- BSC_READ d, with the LBA in ARG (R226). -/
  | bscRead (d : BufIdx)
  /-- BSC_WRITE d, with the LBA in ARG (R227). -/
  | bscWrite (d : BufIdx)
  /-- STR_CFG, with the maximum in ARG (43_streaming.md R250). -/
  | strCfg
  /-- STR_START (R251). -/
  | strStart
  deriving DecidableEq, Repr

end Sys2Proof
end

