-- ==== Sys2Proof/WellFormed.lean ====
section
/-! DEFINITION. Which instructions the command word can carry (30_encoding.md R111). -/

namespace Sys2Proof

/-- `R` is `zext_16` of a 16-bit field: 0..65535 (R111). The value 0 can be encoded; MOD_INIT refuses it
with ARG (40_modulator.md R141). -/
abbrev Instr.ratioFits (r : Nat) : Prop := r ≤ 65535

/-- A sample is `sext_16` of a 16-bit field: -32768..32767 (R111). -/
abbrev Instr.sampleFits (smp : Int) : Prop := -32768 ≤ smp ∧ smp ≤ 32767

/-- Every operand lies in the range its field can hold. The operands whose type has no other value
(a bit, a byte, a buffer index) need no check. -/
def Instr.wf : Instr → Bool
  | .modInit r _ => decide (Instr.ratioFits r)
  | .modPrime => true
  | .modSample smp => decide (Instr.sampleFits smp)
  | .modStep smp _ => decide (Instr.sampleFits smp)
  | .modEnd => true
  | .xptCs _ => true
  | .xptXfer _ => true
  | .bscInit => true
  | .bscRead _ => true
  | .bscWrite _ => true
  | .strCfg => true
  | .strStart => true

end Sys2Proof
end

