-- ==== Sys2Proof/Decode.lean ====
section
/-! DEFINITION. The command word: the opcode map, the decoder and the encoder (30_encoding.md R110 to R117). -/

namespace Sys2Proof

/-- The two units a command belongs to (R113, column "unit"). -/
inductive CmdUnit where
  | mod
  | io
  deriving DecidableEq, Repr

/-- One row of the opcode map (R113). -/
structure OpRow where
  mnemonic : String
  unit : CmdUnit
  pattern : Word
  mask : Word
  deriving DecidableEq, Repr

/-- The opcode map as R113 and opcode_table.json print it (columns "match" and "mask"). -/
def opRows : List OpRow := [
  ⟨"MOD_INIT", .mod, 0x00000010, 0x0000FEFF⟩,
  ⟨"MOD_PRIME", .mod, 0x00000011, 0xFFFFFFFF⟩,
  ⟨"MOD_SAMPLE", .mod, 0x00000012, 0x0000FFFF⟩,
  ⟨"MOD_STEP", .mod, 0x00000013, 0x0000FEFF⟩,
  ⟨"MOD_END", .mod, 0x00000014, 0xFFFFFFFF⟩,
  ⟨"XPT_CS", .io, 0x00000020, 0xFFFFFEFF⟩,
  ⟨"XPT_XFER", .io, 0x00000021, 0xFFFF00FF⟩,
  ⟨"BSC_INIT", .io, 0x00000030, 0xFFFFFFFF⟩,
  ⟨"BSC_READ", .io, 0x00000031, 0xFFFFFEFF⟩,
  ⟨"BSC_WRITE", .io, 0x00000032, 0xFFFFFEFF⟩,
  ⟨"STR_CFG", .io, 0x00000040, 0xFFFFFFFF⟩,
  ⟨"STR_START", .io, 0x00000041, 0xFFFFFFFF⟩]

/-- A word is the command of a row when `(w AND mask) = match` (R113). -/
def OpRow.admits (row : OpRow) (w : Word) : Bool := w &&& row.mask == row.pattern

/-- Why a word is no command (R115): an unassigned opcode, or a 1 in a bit the row fixes to 0. -/
inductive DecodeError where
  | unassignedOpcode (op : Byte)
  | reservedBits (mnemonic : String)
  deriving DecidableEq, Repr

/-- `OP` = w[7:0] (R110). -/
def wordOp (w : Word) : Byte := w.extractLsb' 0 8
/-- `F8` = w[15:8] (R110). -/
def wordF8 (w : Word) : Byte := w.extractLsb' 8 8
/-- `IMM16` = w[31:16] (R110). -/
def wordImm16 (w : Word) : BitVec 16 := w.extractLsb' 16 16

/-- `{IMM16, F8, OP}` (R110). -/
def mkWord (imm16 : BitVec 16) (f8 op : Byte) : Word := imm16 ++ f8 ++ op

/-- A one-bit operand in `F8[0]`: bits [7:1] are reserved and must be 0 (R111, R115). -/
def flagField (f8 : Byte) : Option Bool :=
  if f8 = 0 then some false else if f8 = 1 then some true else none

/-- `F8` with a one-bit operand in bit 0 (R117). -/
def flagByte (b : Bool) : Byte := if b then 1 else 0

/-- The buffer index a one-bit operand names (R111, field `d`). -/
def bufOfFlag (b : Bool) : BufIdx := if b then 1 else 0

/-- The bit that names a buffer index (R111, field `d`). -/
def flagOfBuf (d : BufIdx) : Bool := d = 1

/-- A command without operands: every bit above `OP` is reserved (R115). -/
def plainCommand (name : String) (i : Instr) (w : Word) : Except DecodeError Instr :=
  if wordF8 w = 0 ∧ wordImm16 w = 0 then .ok i else .error (.reservedBits name)

/-- A command whose only operand is `F8[0]` (R111, R115). -/
def flagCommand (name : String) (mk : Bool → Instr) (w : Word) : Except DecodeError Instr :=
  match flagField (wordF8 w) with
  | some b => if wordImm16 w = 0 then .ok (mk b) else .error (.reservedBits name)
  | none => .error (.reservedBits name)

/-- A command with operands in `IMM16` and `F8[0]` (R111, R115). -/
def immFlagCommand (name : String) (mk : BitVec 16 → Bool → Instr) (w : Word) :
    Except DecodeError Instr :=
  match flagField (wordF8 w) with
  | some b => .ok (mk (wordImm16 w) b)
  | none => .error (.reservedBits name)

/-- The decoder (R113, R115): total on every word, refusing by name. -/
def decode (w : Word) : Except DecodeError Instr :=
  if wordOp w = 0x10 then
    immFlagCommand "MOD_INIT" (fun imm b => .modInit imm.toNat b) w
  else if wordOp w = 0x11 then plainCommand "MOD_PRIME" .modPrime w
  else if wordOp w = 0x12 then
    if wordF8 w = 0 then .ok (.modSample (wordImm16 w).toInt) else .error (.reservedBits "MOD_SAMPLE")
  else if wordOp w = 0x13 then
    immFlagCommand "MOD_STEP" (fun imm b => .modStep imm.toInt b) w
  else if wordOp w = 0x14 then plainCommand "MOD_END" .modEnd w
  else if wordOp w = 0x20 then flagCommand "XPT_CS" .xptCs w
  else if wordOp w = 0x21 then
    if wordImm16 w = 0 then .ok (.xptXfer (wordF8 w)) else .error (.reservedBits "XPT_XFER")
  else if wordOp w = 0x30 then plainCommand "BSC_INIT" .bscInit w
  else if wordOp w = 0x31 then flagCommand "BSC_READ" (fun b => .bscRead (bufOfFlag b)) w
  else if wordOp w = 0x32 then flagCommand "BSC_WRITE" (fun b => .bscWrite (bufOfFlag b)) w
  else if wordOp w = 0x40 then plainCommand "STR_CFG" .strCfg w
  else if wordOp w = 0x41 then plainCommand "STR_START" .strStart w
  else .error (.unassignedOpcode (wordOp w))

/-- The encoder: the word column of R117. -/
def encode : Instr → Word
  | .modInit r ssel => mkWord (BitVec.ofNat 16 r) (flagByte ssel) 0x10
  | .modPrime => mkWord 0 0 0x11
  | .modSample smp => mkWord (BitVec.ofInt 16 smp) 0 0x12
  | .modStep smp e => mkWord (BitVec.ofInt 16 smp) (flagByte e) 0x13
  | .modEnd => mkWord 0 0 0x14
  | .xptCs c => mkWord 0 (flagByte c) 0x20
  | .xptXfer t => mkWord 0 t 0x21
  | .bscInit => mkWord 0 0 0x30
  | .bscRead d => mkWord 0 (flagByte (flagOfBuf d)) 0x31
  | .bscWrite d => mkWord 0 (flagByte (flagOfBuf d)) 0x32
  | .strCfg => mkWord 0 0 0x40
  | .strStart => mkWord 0 0 0x41

/-- The word of a table row: bit 0 is the least significant bit of the one 32-bit word; the bits at and
above `nbits` are 0. -/
def tableWord (nbits w : Nat) : Word := BitVec.ofNat 32 (w % 2 ^ nbits)

/-- What the decoder reads from an instruction whose bits are `w` (the host's question about a table row). -/
def decodeTableWord (nbits w : Nat) : Option Instr :=
  match decode (tableWord nbits w) with
  | .ok i => some i
  | .error _ => none

/-- The opcode table's mnemonic of an instruction. -/
def Instr.mnemonic : Instr → String
  | .modInit _ _ => "MOD_INIT"
  | .modPrime => "MOD_PRIME"
  | .modSample _ => "MOD_SAMPLE"
  | .modStep _ _ => "MOD_STEP"
  | .modEnd => "MOD_END"
  | .xptCs _ => "XPT_CS"
  | .xptXfer _ => "XPT_XFER"
  | .bscInit => "BSC_INIT"
  | .bscRead _ => "BSC_READ"
  | .bscWrite _ => "BSC_WRITE"
  | .strCfg => "STR_CFG"
  | .strStart => "STR_START"

/-- The opcode table's unit of an instruction. -/
def Instr.unit : Instr → CmdUnit
  | .modInit _ _ => .mod
  | .modPrime => .mod
  | .modSample _ => .mod
  | .modStep _ _ => .mod
  | .modEnd => .mod
  | .xptCs _ => .io
  | .xptXfer _ => .io
  | .bscInit => .io
  | .bscRead _ => .io
  | .bscWrite _ => .io
  | .strCfg => .io
  | .strStart => .io

end Sys2Proof
end

