-- ==== Sys2Proof/Config.lean ====
section
/-! DEFINITION. The parameters of 00_scope.md R5, the constants of 42_storage.md R213, and the free values:
what CARD, the environment and an unwritten cell give. An `opaque` constant has no body: nothing is known of it. -/

namespace Sys2Proof

/-- `MOD_POLARITY` (40_modulator.md R147). -/
inductive Polarity where
  | literal
  | nonInv
  | invFb
  deriving DecidableEq, Repr, Inhabited

/-- `MOD_OUT_DEPTH` (00_scope.md R5): unbounded, or a positive number of bytes, held as its predecessor so
that no value of the type is zero. -/
inductive QueueDepth where
  | unbounded
  | bounded (pred : Nat)
  deriving DecidableEq, Repr, Inhabited

/-- One byte exchange on the SPI lines: `(CS_N, tx, rx)` (41_transport.md R192). -/
structure Exchange where
  csN : Bool
  tx : Byte
  rx : Byte
  deriving DecidableEq, Repr, Inhabited

/-- One access of HOST on the bus (20_memory.md R82). `bytes` is the width asked for; anything but 4 is an
access error (R85). -/
inductive Access where
  | read (off : Offset) (bytes : Nat)
  | write (off : Offset) (bytes : Nat) (v : Word)
  deriving DecidableEq, Repr, Inhabited

/-- Whose turn it is (00_scope.md R6), with what the environment supplies in it: HOST's access, a change of
OUT_READY by OUTDEV, a change of the RST_N pin (R7). -/
inductive Turn where
  | host (a : Access)
  | mod
  | ioseq
  | drain
  | outReady (level : Bool)
  | rstN (level : Bool)
  deriving DecidableEq, Repr, Inhabited

namespace Config

/-! ## Parameters without a value (R5; DESIGN CHOICE, log entries 11 and 12) -/

/-- `MOD_POLARITY` (R147, 90_conflicts.md C1): every statement holds for each polarity. -/
opaque modPolarity : Polarity
/-- `MOD_OUT_DEPTH` (R5, R150). -/
opaque modOutDepth : QueueDepth
/-- `F_REF`, in Hz (R5, R155). -/
opaque fRef : Nat
/-- `SPI_CLK`, in Hz (R5); no rule depends on it. -/
opaque spiClk : Nat
/-- `BASE`, the host address of the window (R5, R81). -/
opaque base : Nat

/-! ## Free values (DESIGN CHOICE, log entries 1 to 3) -/

/-- CARD (41_transport.md R195): the byte received, from the history, the level of CS_N and the byte sent. -/
opaque card (history : List Exchange) (csN : Bool) (tx : Byte) : Byte
/-- What a read of an `unwritten` cell returns in hardware (20_memory.md R88): any byte, drawn anew each time. -/
opaque unwrittenByte (draw : Nat) : Byte
/-- The turn that comes next where State has none decided (00_scope.md R6: any interleaving). -/
opaque environment (tick : Nat) : Turn

/-! ## Parameters with a value (R5) -/

/-- `RAIL_POS` (R5). -/
def railPos : Int := 32767
/-- `RAIL_NEG` (R5). -/
def railNeg : Int := -32768
/-- `INIT_IDLE_BYTES` (R5, R213). -/
def initIdleBytes : Nat := 100
/-- `CMD0_MAX_ATTEMPTS` (R5, R213). -/
def cmd0MaxAttempts : Nat := 10

/-! ## The card protocol's constants (42_storage.md R213; log entry 18) -/

def fill : Byte := 0xFF
def frameBits : Byte := 0x40
def cmd0 : Byte := 0
def cmd8 : Byte := 8
def cmd16 : Byte := 16
def cmd17 : Byte := 17
def cmd24 : Byte := 24
def cmd55 : Byte := 55
def acmd41 : Byte := 41
def crcCmd0 : Byte := 0x95
def crcCmd8 : Byte := 0x87
def crcAny : Byte := 0xFF
def argCmd8 : Word := 0x000001AA
def argAcmd41 : Word := 0x40000000
def argCmd16 : Word := 0x00000200
def tokIdle : Byte := 0x01
def tokReady : Byte := 0x00
def tokStart : Byte := 0xFE
def tokWStart : Byte := 0xFE
def tokBusy : Byte := 0x00
def drAccept : Byte := 0x05
def drCrc : Byte := 0x0B
def drWErr : Byte := 0x0D

end Config

end Sys2Proof
end

