-- ==== Sys2Proof/Machine/State.lean ====
section
/-! DEFINITION. The state of the block (10_state.md), grouped by unit, with the ports and the environment's
records; its faults and refusals; and the state after reset (10_state.md R62). -/

namespace Sys2Proof.Machine

/-! ## Names the state uses -/

/-- `MOD_PHASE` (R34). -/
inductive ModPhase where
  | unconfig
  | configured
  | primed
  | ended
  deriving DecidableEq, Repr

/-- `MOD_KIND` (R37). -/
inductive ModKind where
  | none
  | prime
  | sample
  | step
  deriving DecidableEq, Repr

/-- The four handshake failures (R41; 60_exceptions.md R284). -/
inductive InitFailure where
  | cmd0
  | cmd8
  | cmd55
  | cmd16
  deriving DecidableEq, Repr

/-- `SESSION` (R41). Codes 6 and 7 are never held, so they have no constructor. -/
inductive Session where
  | uninitialized
  | ready
  | failed (reason : InitFailure)
  deriving DecidableEq, Repr

/-- `STR_STATE` (R43). -/
inductive StrState where
  | idle
  | priming
  | active
  | stopped
  deriving DecidableEq, Repr

/-- `ERR` (R45, 60_exceptions.md R281). Codes 7 to 15 are never written, so they have no constructor. -/
inductive ErrCode where
  | ok
  | illegal
  | busy
  | state
  | arg
  | halted
  | access
  deriving DecidableEq, Repr

/-- `FATAL_CODE` (R46, 60_exceptions.md R285). Code 2, `readStartTokenMissing`, has a number but is never
raised. -/
inductive FatalCode where
  | none
  | readCmdRejected
  | readStartTokenMissing
  | writeCmdRejected
  | invalidDataResponse
  | crcError
  | writeError
  | unknownError
  deriving DecidableEq, Repr

/-! ## IOSEQ's position -/

/-- A step of SEND_CMD (42_storage.md R210): S1 asserts the select, S2 to S7 send the frame, S8 polls. -/
inductive SendPos where
  | s1
  | s2
  | s3
  | s4
  | s5
  | s6
  | s7
  | s8
  deriving DecidableEq, Repr

/-- A step of CMD_END (R212). -/
inductive ClosePos where
  | e1
  | e2
  deriving DecidableEq, Repr

/-- Who called READ_SECTOR: BSC_READ (R226), P1, P2 (43_streaming.md R252) or L4 (R254). -/
inductive ReadFor where
  | host
  | prime0
  | prime1
  | refill
  deriving DecidableEq, Repr

/-- The call sites of SEND_CMD. The CMD0 loop counts its attempts from 1 (42_storage.md R217). -/
inductive Site where
  | cmd0 (attempt : Nat)
  | cmd8
  | cmd55
  | acmd41
  | cmd16
  | cmd17 (c : ReadFor)
  | cmd24
  deriving DecidableEq, Repr

/-- The call sites of CMD_END. Where the status is tested after the bracket closes, the procedure's local `r`
stands beside the site (R217, R219, R220). -/
inductive CloseSite where
  | cmd0 (attempt : Nat) (r : Byte)
  | cmd8Failed
  | cmd8
  | cmd55 (r : Byte)
  | acmd41 (r : Byte)
  | cmd16 (r : Byte)
  | cmd17 (c : ReadFor)
  | cmd24
  deriving DecidableEq, Repr

/-- `IO_POS` (10_state.md R42): the current line, with the loop counters of its procedure. -/
inductive IoPos where
  /-- no procedure runs -/
  | idle
  /-- XPT.1 (41_transport.md R191) -/
  | xpt1
  /-- I1's `CS(1)` (42_storage.md R216) -/
  | i1cs
  /-- I1's loop, with how many clocks have been sent (R216) -/
  | i1clk (sent : Nat)
  /-- inside SEND_CMD (R210) -/
  | send (k : Site) (p : SendPos)
  /-- the line after SEND_CMD that tests the status `r` (R217 to R220, R222, R223) -/
  | test (k : Site) (r : Byte)
  /-- CMD8's trailing bytes, with how many have been read (R218) -/
  | i3trail (got : Nat)
  /-- inside CMD_END (R212) -/
  | close (k : CloseSite) (p : ClosePos)
  /-- INIT has returned; the step that records its result (R214, R221) -/
  | initReturn (failure : Option InitFailure)
  /-- READ_SECTOR's dummy clock (R222) -/
  | rd1 (c : ReadFor)
  /-- READ_SECTOR's start-token poll -/
  | rd3 (c : ReadFor)
  /-- READ_SECTOR's data loop, at byte `i` -/
  | rd4 (c : ReadFor) (i : SectorIdx)
  /-- READ_SECTOR's two CRC bytes -/
  | rd5 (c : ReadFor) (second : Bool)
  /-- READ_SECTOR has returned to BSC_READ (R226) -/
  | readReturn
  /-- WRITE_SECTOR's dummy clock (R223) -/
  | w1
  /-- WRITE_SECTOR's start-block token -/
  | w3
  /-- WRITE_SECTOR's data loop, at byte `i` -/
  | w4 (i : SectorIdx)
  /-- WRITE_SECTOR's data-response poll -/
  | w5
  /-- DATA_RESPONSE(t) (R224) -/
  | w6 (t : Byte)
  /-- the busy wait (R225) -/
  | w7
  /-- WRITE_SECTOR has returned to BSC_WRITE (R227) -/
  | writeReturn
  /-- the end of priming (43_streaming.md R252) -/
  | p3
  /-- the refill loop (R254) -/
  | l1
  | l2
  | l3
  | l5
  deriving DecidableEq, Repr

/-! ## The units' state -/

/-- MOD (10_state.md R32 to R38). `nbits` is 0..7 by its type. -/
structure Mod where
  a : Word
  b : Word
  r : BitVec 16
  ssel : Bool
  phase : ModPhase
  pack : Byte
  nbits : Fin 8
  mq : List Byte
  busy : Bool
  kind : ModKind
  remain : Word
  curS : BitVec 16
  curE : Bool
  ovf : Bool
  deriving DecidableEq, Repr

/-- XPT (R39, R40). `bit` is XPT_BIT, 0..8. -/
structure Xpt where
  csN : Bool
  sck : Bool
  mosi : Bool
  rxdata : Byte
  bit : Fin 9
  tx : Byte
  rx : Byte
  deriving DecidableEq, Repr

/-- IOSEQ (R42). -/
structure IoSeq where
  busy : Bool
  pos : IoPos
  arg : Word
  d : BufIdx
  tgt : BufIdx
  deriving DecidableEq, Repr

/-- STR (R43, R53). `cursor` is 0..511 by its type: CURSOR never holds 512 (43_streaming.md R253). -/
structure Str where
  state : StrState
  role : BufIdx
  cursor : SectorIdx
  refillReq : Bool
  next : Word
  max : Word
  irqEn : Bool
  deriving DecidableEq, Repr

/-- The buffer memory: the cells that hold a byte, keyed by their byte offset in the register window
(20_memory.md R86: byte i of BUF[d] is at 0x800 + 512 d + i). A cell not listed is `unwritten` (R48). -/
abbrev Memory := List Host.Cell

/-- One event on the card's lines, in order (41_transport.md R198). -/
inductive BusEvent where
  | cs (level : Bool)
  | xfer (x : Exchange)
  deriving DecidableEq, Repr

/-- The ports of 00_scope.md R7, the records the outside keeps (41_transport.md R198; 70_reset_and_hazards.md
R332), and what the outside has already decided. Reset does not touch them (R321). -/
structure Env where
  /-- RST_N -/
  rstN : Bool
  /-- OUT_READY -/
  outReady : Bool
  /-- OUT_BYTE -/
  outByte : Byte
  /-- OUT_VALID: the strobe of the step just taken -/
  outValid : Bool
  /-- the data HOST's last read returned -/
  rdata : Word
  /-- the events on the card's lines, oldest first -/
  transcript : List BusEvent
  /-- the bytes emitted on OUT_BYTE, oldest first -/
  emitted : List Byte
  /-- the bytes HOST popped from MODOUT, oldest first -/
  popped : List Byte
  /-- the model's own: the turns already decided, next first -/
  turns : List Turn
  /-- the model's own: how many steps were taken -/
  tick : Nat
  /-- the model's own: CARD's answers already decided, next first -/
  cardScript : List Byte
  /-- the model's own: how many unwritten cells were read -/
  draws : Nat
  deriving DecidableEq, Repr

/-- The machine. -/
structure State where
  mod : Mod
  xpt : Xpt
  session : Session
  ioseq : IoSeq
  str : Str
  bufs : Memory
  /-- ARG (R44) -/
  arg : Word
  /-- ERR (R45) -/
  err : ErrCode
  /-- HALTED (R46) -/
  halted : Bool
  /-- FATAL_CODE (R46) -/
  fatalCode : FatalCode
  /-- GLITCH, a ghost (R47): no behaviour reads it -/
  glitch : Bool
  /-- MFAULT, a model-only record (60_exceptions.md R280) -/
  mfault : Bool
  env : Env
  deriving DecidableEq, Repr

/-! ## Reset values -/

/-- MOD after reset (R62). -/
def Mod.reset : Mod :=
  { a := 0, b := 0, r := 0, ssel := false, phase := .unconfig, pack := 0, nbits := 0, mq := [],
    busy := false, kind := .none, remain := 0, curS := 0, curE := false, ovf := false }

/-- XPT after reset (R62). -/
def Xpt.reset : Xpt :=
  { csN := true, sck := false, mosi := true, rxdata := 0, bit := 0, tx := 0, rx := 0 }

/-- IOSEQ after reset (R62). -/
def IoSeq.reset : IoSeq := { busy := false, pos := .idle, arg := 0, d := 0, tgt := 0 }

/-- STR after reset (R62). -/
def Str.reset : Str :=
  { state := .idle, role := 0, cursor := 0, refillReq := false, next := 0, max := 0, irqEn := false }

/-- The outside at the first reset: nothing recorded and nothing decided. DESIGN CHOICE (log entries 1 to 3,
5, 6): the spec gives no value but RST_N = 1 (R320) and OUT_VALID not strobed (R322). -/
def Env.reset : Env :=
  { rstN := true, outReady := false, outByte := 0, outValid := false, rdata := 0, transcript := [],
    emitted := [], popped := [], turns := [], tick := 0, cardScript := [], draws := 0 }

/-- The machine right after reset (10_state.md R62, 70_reset_and_hazards.md R322). -/
def State.reset : State :=
  { mod := Mod.reset, xpt := Xpt.reset, session := .uninitialized, ioseq := IoSeq.reset, str := Str.reset,
    bufs := [], arg := 0, err := .ok, halted := false, fatalCode := .none, glitch := false, mfault := false,
    env := Env.reset }

/-! ## Outcomes other than a next state -/

/-- Why a step can fault. No meaning and no agent raises one: every abnormal outcome of 60_exceptions.md R280,
the model fault included, is a next state with its record set. -/
inductive Fault where
  deriving DecidableEq, Repr

/-- Why a step can be refused. -/
inductive Refusal where
  /-- An arm of `exec` that has no meaning yet raises it; safe, since nothing follows from it. No arm does:
  all twelve commands have their meaning. -/
  | notModelled (mnemonic : String)
  deriving DecidableEq, Repr

end Sys2Proof.Machine
end

