-- ==== Sys2Proof/Machine/Ops.lean ====
section
/-! DEFINITION. The named operations: buffer memory, updates of State, accepting and refusing a command
(30_encoding.md R114), the fatal entry (60_exceptions.md R286) and the reset event, which is the only way
back from it (70_reset_and_hazards.md R320, R321). -/

namespace Sys2Proof.Machine

/-! ## Buffer memory -/

/-- The cell at an address, `none` while it is `unwritten` (10_state.md R48). -/
def Memory.read : Memory → Nat → Option Byte
  | [], _ => none
  | (k, v) :: m, a => if k = a then some v else Memory.read m a

/-- Write one cell, keeping the list sorted by address. -/
def Memory.write : Memory → Nat → Byte → Memory
  | [], a, b => [(a, b)]
  | (k, v) :: m, a, b =>
    if a < k then (a, b) :: (k, v) :: m
    else if a = k then (a, b) :: m
    else (k, v) :: Memory.write m a b

/-- The canonical form: addresses strictly rising, all in the buffer window (20_memory.md R81). An unlisted
address reads as no byte, so no entry can equal what it reads as. -/
abbrev Memory.wf (m : Memory) : Prop :=
  m.Pairwise (fun x y => x.1 < y.1) ∧ ∀ c ∈ m, 0x800 ≤ c.1 ∧ c.1 < 0xC00

/-- Where byte `i` of `BUF[d]` stands in the register window (R86). -/
def cellAddr (d : BufIdx) (i : SectorIdx) : Nat := 0x800 + 512 * d.val + i.val

/-- The other buffer: `1 - d`. -/
def otherBuf (d : BufIdx) : BufIdx := if d = 0 then 1 else 0

/-! ## Updates of State -/

def State.withMod (s : State) (m : Mod) : State := { s with mod := m }
def State.withXpt (s : State) (x : Xpt) : State := { s with xpt := x }
def State.withSession (s : State) (x : Session) : State := { s with session := x }
def State.withIo (s : State) (x : IoSeq) : State := { s with ioseq := x }
def State.withStr (s : State) (x : Str) : State := { s with str := x }
def State.withBufs (s : State) (m : Memory) : State := { s with bufs := m }
def State.withArg (s : State) (v : Word) : State := { s with arg := v }
def State.withErr (s : State) (e : ErrCode) : State := { s with err := e }
/-- Set the fatal latch (10_state.md R46). -/
def State.withHalt (s : State) (c : FatalCode) : State := { s with halted := true, fatalCode := c }
def State.withGlitch (s : State) (g : Bool) : State := { s with glitch := g }
def State.withMfault (s : State) (f : Bool) : State := { s with mfault := f }
def State.withEnv (s : State) (e : Env) : State := { s with env := e }

/-- Move IOSEQ to a line (10_state.md R42). -/
def State.goto (s : State) (p : IoPos) : State := s.withIo { s.ioseq with pos := p }

/-- IOSEQ's command is over: `IO_BUSY <- 0 ; IO_POS <- idle`. -/
def State.finishIo (s : State) : State := s.withIo { s.ioseq with busy := false, pos := .idle }

/-- IOSEQ starts a procedure: `IO_BUSY <- 1 ; IO_POS <- p`. -/
def State.startIo (s : State) (p : IoPos) : State := s.withIo { s.ioseq with busy := true, pos := p }

/-! ## Buffer cells -/

/-- Store one byte of a buffer. -/
def State.writeCell (s : State) (a : Nat) (b : Byte) : State := s.withBufs (Memory.write s.bufs a b)

/-- Read one cell (20_memory.md R88). A written cell gives its byte. An `unwritten` cell gives a free value,
"some byte", and the step that reads it sets MFAULT (60_exceptions.md R280; DESIGN CHOICE, log entry 3). -/
def readCell (a : Nat) (s : State) : Byte × State :=
  match Memory.read s.bufs a with
  | some b => (b, s)
  | none =>
    (Config.unwrittenByte s.env.draws,
      (s.withMfault true).withEnv { s.env with draws := s.env.draws + 1 })

/-- Read the four cells of a window word, the lowest first, in little-endian order (20_memory.md R83). -/
def readWord (a : Nat) (s : State) : Word × State :=
  let r0 := readCell a s
  let r1 := readCell (a + 1) r0.2
  let r2 := readCell (a + 2) r1.2
  let r3 := readCell (a + 3) r2.2
  (r3.1 ++ r2.1 ++ r1.1 ++ r0.1, r3.2)

/-- Write the four cells of a window word: byte j takes v[8j+7:8j] (R83). -/
def writeWord (a : Nat) (v : Word) (s : State) : State :=
  (((s.writeCell a (v.extractLsb' 0 8)).writeCell (a + 1) (v.extractLsb' 8 8)).writeCell (a + 2)
    (v.extractLsb' 16 8)).writeCell (a + 3) (v.extractLsb' 24 8)

/-! ## Accepting a command -/

/-- Whether a unit runs a command (30_encoding.md R114). -/
def unitBusy (u : CmdUnit) (s : State) : Bool :=
  match u with
  | .mod => s.mod.busy
  | .io => s.ioseq.busy

/-- The checks of R114 on a decoded command, in their order: the first that fails gives the code (R282). -/
def verdict (u : CmdUnit) (pre argOk : Bool) (s : State) : ErrCode :=
  if s.halted then .halted
  else if unitBusy u s then .busy
  else if u = .io ∧ s.str.state = .stopped then .state
  else if pre = false then .state
  else if argOk = false then .arg
  else .ok

/-- Issue a decoded command (R114): a refusal changes nothing but ERR; an accepted command sets `ERR <- 0`
and performs its accept action. -/
def issue (u : CmdUnit) (pre argOk : Bool) (act : State → State) (s : State) : State :=
  if verdict u pre argOk s = .ok then act (s.withErr .ok) else s.withErr (verdict u pre argOk s)

/-- A word that is no command (R114, R115): HALTED is checked first. -/
def refuseIllegal (s : State) : State := s.withErr (if s.halted then .halted else .illegal)

/-- An access error (20_memory.md R85): `ERR <- 6`, and nothing else. -/
def accessError (s : State) : State := s.withErr .access

/-! ## The fatal entry and reset -/

/-- `raise Fatal(code)` (60_exceptions.md R286): the latch is set, DRAIN, IOSEQ and MOD stop, all together.
Everything else keeps its value. -/
def raiseFatal (c : FatalCode) (s : State) : State :=
  (((s.withHalt c).withStr { s.str with irqEn := false }).finishIo).withMod
    { s.mod with busy := false, kind := .none }

/-- The reset event (70_reset_and_hazards.md R320, R321): every piece of block state takes its reset value;
MFAULT and what is outside the block keep theirs. -/
def resetEvent (s : State) : State :=
  { State.reset with mfault := s.mfault, env := { s.env with rstN := true } }

/-- The RST_N pin takes a level (R320): its rise is the reset event; a level it already has changes nothing. -/
def setRstN (level : Bool) (s : State) : State :=
  if level then (if s.env.rstN then s else resetEvent s) else s.withEnv { s.env with rstN := false }

end Sys2Proof.Machine
end

