-- ==== Sys2Proof/Machine/Flags.lean ====
section
/-! DEFINITION. The 32-bit range test and wrap behind OVF (00_scope.md R9, 40_modulator.md R148), and the words
the read-only registers show (10_state.md R51 to R61). -/

namespace Sys2Proof.Machine

/-- `fits32(x)` (R9). -/
def fits32 (x : Int) : Bool := decide (-2147483648 ≤ x ∧ x ≤ 2147483647)

/-- `wrap32(x)` (R9): the two's-complement word congruent to x modulo 2^32. -/
def wrap32 (x : Int) : Word := BitVec.ofInt 32 x

/-! ## Codes -/

/-- `MOD_PHASE` (R34). -/
def ModPhase.code : ModPhase → BitVec 2
  | .unconfig => 0
  | .configured => 1
  | .primed => 2
  | .ended => 3

/-- `SESSION` (R41). -/
def Session.code : Session → BitVec 3
  | .uninitialized => 0
  | .ready => 1
  | .failed .cmd0 => 2
  | .failed .cmd8 => 3
  | .failed .cmd55 => 4
  | .failed .cmd16 => 5

/-- `STR_STATE` (R43). -/
def StrState.code : StrState → BitVec 2
  | .idle => 0
  | .priming => 1
  | .active => 2
  | .stopped => 3

/-- `ERR` (60_exceptions.md R281). -/
def ErrCode.code : ErrCode → BitVec 4
  | .ok => 0
  | .illegal => 1
  | .busy => 2
  | .state => 3
  | .arg => 4
  | .halted => 5
  | .access => 6

/-- `FATAL_CODE` (60_exceptions.md R285). -/
def FatalCode.code : FatalCode → BitVec 4
  | .none => 0
  | .readCmdRejected => 1
  | .readStartTokenMissing => 2
  | .writeCmdRejected => 3
  | .invalidDataResponse => 4
  | .crcError => 5
  | .writeError => 6
  | .unknownError => 7

/-! ## Register words -/

/-- STATUS (R51), from bit 31 down. -/
def statusWord (s : State) : Word :=
  0#8 ++ s.err.code ++ s.fatalCode.code ++ 0#1 ++ BitVec.ofBool s.halted ++ BitVec.ofBool s.xpt.csN ++
    BitVec.ofNat 1 s.str.role.val ++ BitVec.ofBool s.str.refillReq ++ BitVec.ofBool s.str.irqEn ++
    s.str.state.code ++ s.session.code ++ BitVec.ofBool s.mod.ovf ++ s.mod.phase.code ++
    BitVec.ofBool s.ioseq.busy ++ BitVec.ofBool s.mod.busy

/-- RXDATA (R52). -/
def rxdataWord (s : State) : Word := 0#24 ++ s.xpt.rxdata

/-- MODCFG (R55). -/
def modcfgWord (s : State) : Word := 0#15 ++ BitVec.ofBool s.mod.ssel ++ s.mod.r

/-- PACK (R57). -/
def packWord (s : State) : Word := 0#20 ++ BitVec.ofNat 4 s.mod.nbits.val ++ s.mod.pack

/-- MODOUT_COUNT (R58): the length of MQ, saturated at 2^32 - 1. -/
def modoutCountWord (s : State) : Word := BitVec.ofNat 32 (min s.mod.mq.length 4294967295)

/-- STR_CURSOR (R60). -/
def cursorWord (s : State) : Word := BitVec.ofNat 32 s.str.cursor.val

/-- MODOUT while MQ holds a byte (40_modulator.md R152): `{23'b0, 1, head(MQ)}`. -/
def modoutWord (b : Byte) : Word := 0#23 ++ 1#1 ++ b

end Sys2Proof.Machine
end

