-- ==== Sys2Proof/Machine/Operands.lean ====
section
/-! DEFINITION. Operands: what a command's fields and the latched registers stand for. The step counts of the
MOD commands (40_modulator.md R142, R143), the sector address and buffer of a read (42_storage.md R226,
43_streaming.md R252, R254), and the frame SEND_CMD sends at each of its call sites (42_storage.md R210, R217 to
R223; 30_encoding.md R119). -/

namespace Sys2Proof.Machine

/-- S: the sample rate SSEL selects (10_state.md R33). -/
def sampleRate (ssel : Bool) : Nat := if ssel then 16000 else 8000

/-- `S · MOD_R`: the silent steps of MOD_PRIME (R142). -/
def primeSteps (m : Mod) : Nat := sampleRate m.ssel * m.r.toNat

/-- `2 · MOD_R`: the steps of one sample (R143). -/
def sampleSteps (m : Mod) : Nat := 2 * m.r.toNat

/-- The sector address of READ_SECTOR, by its caller. -/
def readLba (c : ReadFor) (s : State) : Word :=
  match c with
  | .host => s.ioseq.arg
  | .prime0 => 0
  | .prime1 => 1
  | .refill => s.str.next

/-- The destination buffer of READ_SECTOR, by its caller. -/
def readBuf (c : ReadFor) (s : State) : BufIdx :=
  match c with
  | .host => s.ioseq.d
  | .prime0 => 0
  | .prime1 => 1
  | .refill => s.ioseq.tgt

/-- The command index a call site sends. -/
def siteIndex : Site → Byte
  | .cmd0 _ => Config.cmd0
  | .cmd8 => Config.cmd8
  | .cmd55 => Config.cmd55
  | .acmd41 => Config.acmd41
  | .cmd16 => Config.cmd16
  | .cmd17 _ => Config.cmd17
  | .cmd24 => Config.cmd24

/-- The argument a call site sends. A sector address goes out unchanged (R230). -/
def siteArg (k : Site) (s : State) : Word :=
  match k with
  | .cmd0 _ => 0
  | .cmd8 => Config.argCmd8
  | .cmd55 => 0
  | .acmd41 => Config.argAcmd41
  | .cmd16 => Config.argCmd16
  | .cmd17 c => readLba c s
  | .cmd24 => s.ioseq.arg

/-- The CRC byte a call site sends. -/
def siteCrc : Site → Byte
  | .cmd0 _ => Config.crcCmd0
  | .cmd8 => Config.crcCmd8
  | .cmd55 => Config.crcAny
  | .acmd41 => Config.crcAny
  | .cmd16 => Config.crcAny
  | .cmd17 _ => Config.crcAny
  | .cmd24 => Config.crcAny

/-- The six bytes of a command frame in send order (30_encoding.md R119): the argument is big-endian. -/
def frameBytes (idx : Byte) (arg : Word) (crc : Byte) : List Byte :=
  [Config.frameBits ||| idx, arg.extractLsb' 24 8, arg.extractLsb' 16 8, arg.extractLsb' 8 8,
    arg.extractLsb' 0 8, crc]

/-- The byte S2 to S7 sends (R210); S1 sends none and S8 polls with the fill byte. -/
def sendByte (k : Site) (p : SendPos) (s : State) : Byte :=
  match p with
  | .s1 => Config.fill
  | .s2 => Config.frameBits ||| siteIndex k
  | .s3 => (siteArg k s).extractLsb' 24 8
  | .s4 => (siteArg k s).extractLsb' 16 8
  | .s5 => (siteArg k s).extractLsb' 8 8
  | .s6 => (siteArg k s).extractLsb' 0 8
  | .s7 => siteCrc k
  | .s8 => Config.fill

/-- Whether IO_POS is inside the READ_SECTOR called from L4, RD1 to RD6 (43_streaming.md R258). -/
def IoPos.inL4 : IoPos → Bool
  | .send (.cmd17 .refill) _ => true
  | .test (.cmd17 .refill) _ => true
  | .close (.cmd17 .refill) _ => true
  | .rd1 .refill => true
  | .rd3 .refill => true
  | .rd4 .refill _ => true
  | .rd5 .refill _ => true
  | _ => false

/-- Whether IO_POS is L2, L3 or L4: the refill has been taken and its read has not returned (R253, R258). -/
def IoPos.refilling (p : IoPos) : Bool := p == .l2 || p == .l3 || p.inL4

end Sys2Proof.Machine
end

