-- ==== Sys2Proof/Machine/Modulator.lean ====
section
/-! DEFINITION. MOD: the internal step (40_modulator.md R146 to R149), the agent's step and its hold (R150,
R151), and the meanings of the five MOD commands (R140 to R145). -/

namespace Sys2Proof.Machine

/-! ## The modulator step -/

/-- `L_GT`: the level when the stored B is positive (R147). -/
def levelGt : Polarity → Int
  | .literal => Config.railNeg
  | .nonInv => Config.railPos
  | .invFb => Config.railNeg

/-- `L_LE`: the level when the stored B is not positive (R147). -/
def levelLe : Polarity → Int
  | .literal => Config.railPos
  | .nonInv => Config.railNeg
  | .invFb => Config.railPos

/-- σ: the sign of the feedback (R147). -/
def feedbackSign : Polarity → Int
  | .literal => 1
  | .nonInv => 1
  | .invFb => -1

/-- Step 2: the quantizer on the stored B (R146, R147). -/
def quantize (pol : Polarity) (b : Word) : Int := if 0 < b.toInt then levelGt pol else levelLe pol

/-- What one internal step computes from the accumulators: their new values, the bit and whether a sum left
the `int32` range. -/
structure StepResult where
  a : Word
  b : Word
  bit : Bool
  overflow : Bool
  deriving DecidableEq, Repr

/-- Steps 1 to 5 of R146, with each sum exact and stored by `wrap32` (R148). -/
def accStep (pol : Polarity) (a b : Word) (smp : Int) : StepResult :=
  let b1 : Int := b.toInt + a.toInt
  let bs := wrap32 b1
  let level := quantize pol bs
  let a1 : Int := a.toInt + (smp - feedbackSign pol * level)
  let b2 : Int := bs.toInt - feedbackSign pol * level
  { a := wrap32 a1, b := wrap32 b2, bit := decide (0 < level),
    overflow := !fits32 b1 || !fits32 a1 || !fits32 b2 }

/-- `PACKBIT(bit)` (R149): shift the bit in at bit 0; the eighth bit pushes the byte and `NBITS <- 0`
(NBITS has type `Fin 8`, where 7 + 1 is 0), and PACK keeps it. -/
def Mod.packBit (m : Mod) (bit : Bool) : Mod :=
  let p : Byte := (m.pack <<< 1) ||| (if bit then 1 else 0)
  if m.nbits = 7 then { m with pack := p, nbits := 0, mq := m.mq ++ [p] }
  else { m with pack := p, nbits := m.nbits + 1 }

/-- `STEP(s, e)` (R146): accumulators and the sticky OVF, then the packer if e = 1. -/
def Mod.internalStep (pol : Polarity) (smp : Int) (e : Bool) (m : Mod) : Mod :=
  let r := accStep pol m.a m.b smp
  let m1 := { m with a := r.a, b := r.b, ovf := m.ovf || r.overflow }
  if e then m1.packBit r.bit else m1

/-! ## The MOD agent -/

/-- Whether MQ holds `MOD_OUT_DEPTH` bytes (R150). -/
def queueFull (depth : QueueDepth) (q : List Byte) : Bool :=
  match depth with
  | .unbounded => false
  | .bounded pred => decide (pred + 1 ≤ q.length)

/-- The hold of R150: the step would push into a full queue. -/
def Mod.held (m : Mod) : Bool := m.curE && m.nbits == 7 && queueFull Config.modOutDepth m.mq

/-- The end of a MOD command, when no step remains (R151). -/
def Mod.finish (m : Mod) : Mod :=
  { m with phase := if m.kind = .prime then .primed else m.phase, busy := false, kind := .none }

/-- The MOD agent's step when it is enabled (R151). -/
def Mod.advance (pol : Polarity) (m : Mod) : Mod :=
  let m1 := m.internalStep pol m.curS.toInt m.curE
  let m2 := { m1 with remain := m1.remain - 1 }
  if m2.remain = 0 then m2.finish else m2

/-- The MOD agent has a step (R151). -/
def modEnabled (s : State) : Bool := s.mod.busy && !s.halted && !s.mod.held

/-- A turn of MOD: its step if it has one. -/
def modAgent (s : State) : State :=
  if modEnabled s then s.withMod (s.mod.advance Config.modPolarity) else s

/-! ## MODOUT -/

/-- A read of MODOUT (R152): the head of MQ with VALID, popped in the same step; 0 where MQ is empty. -/
def popModout (s : State) : Word × State :=
  match s.mod.mq with
  | [] => (0, s)
  | b :: q =>
    (modoutWord b, (s.withMod { s.mod with mq := q }).withEnv { s.env with popped := s.env.popped ++ [b] })

/-! ## The commands -/

/-- Start a command of `steps` internal steps (R142 to R144). -/
def startMod (kind : ModKind) (steps : Nat) (smp : BitVec 16) (e : Bool) (s : State) : State :=
  s.withMod { s.mod with busy := true, kind := kind, remain := BitVec.ofNat 32 steps, curS := smp, curE := e }

/-- MOD_INIT's accept action (R141). -/
def acceptModInit (r : Nat) (ssel : Bool) (s : State) : State :=
  s.withMod
    { s.mod with
      r := BitVec.ofNat 16 r, ssel := ssel, a := 0, b := 0, ovf := false, pack := 0, nbits := 0, mq := [],
      kind := .none, remain := 0, curS := 0, curE := false, phase := .configured }

/-- MOD_END's accept action (R145). -/
def acceptModEnd (s : State) : State :=
  s.withMod { s.mod with pack := 0, nbits := 0, phase := .ended }

/-- The phases in which MOD_STEP and MOD_END are allowed (R144, R145). -/
def configuredOrPrimed (s : State) : Bool := s.mod.phase == .configured || s.mod.phase == .primed

/-- MOD_INIT (R141). -/
def execModInit (r : Nat) (ssel : Bool) (s : State) : Host.Outcome State Fault Refusal :=
  .next (issue .mod true (decide (1 ≤ r)) (acceptModInit r ssel) s)

/-- MOD_PRIME (R142). -/
def execModPrime (s : State) : Host.Outcome State Fault Refusal :=
  .next (issue .mod (s.mod.phase == .configured) true (startMod .prime (primeSteps s.mod) 0 false) s)

/-- MOD_SAMPLE (R143). -/
def execModSample (smp : Int) (s : State) : Host.Outcome State Fault Refusal :=
  .next (issue .mod (s.mod.phase == .primed) true
    (startMod .sample (sampleSteps s.mod) (BitVec.ofInt 16 smp) true) s)

/-- MOD_STEP (R144). -/
def execModStep (smp : Int) (e : Bool) (s : State) : Host.Outcome State Fault Refusal :=
  .next (issue .mod (configuredOrPrimed s) true (startMod .step 1 (BitVec.ofInt 16 smp) e) s)

/-- MOD_END (R145). -/
def execModEnd (s : State) : Host.Outcome State Fault Refusal :=
  .next (issue .mod (configuredOrPrimed s) true acceptModEnd s)

end Sys2Proof.Machine
end

