-- ==== Sys2Proof/Machine/Transport.lean ====
section
/-! DEFINITION. XPT: the eight bit cycles (41_transport.md R193), the byte exchange (R192), the chip select (R194),
CARD's answer (R195), and the meanings of XPT_CS and XPT_XFER (R190, R191). -/

namespace Sys2Proof.Machine

/-! ## Bit cycles -/

/-- `v[i] <- b`. -/
def setBit (v : Byte) (i : Nat) (b : Bool) : Byte :=
  if b then v ||| (1#8 <<< i) else v &&& ~~~(1#8 <<< i)

/-- `MOSI <- tx[i]`, with SCK = 0 (R193). -/
def Xpt.drive (i : Nat) (x : Xpt) : Xpt := { x with mosi := x.tx.getLsbD i, sck := false }

/-- `SCK <- 1`: the block samples MISO into rx[i] (R193). -/
def Xpt.rise (i : Nat) (miso : Bool) (x : Xpt) : Xpt := { x with sck := true, rx := setBit x.rx i miso }

/-- `SCK <- 0`: `i` bits are left (R193: XPT_BIT counts 8..1, and 0 is idle). -/
def Xpt.fall (i : Fin 9) (x : Xpt) : Xpt := { x with sck := false, bit := i }

/-- The bit cycles i = n-1 down to 0, MISO carrying the bits of the card's byte MSB first (R193). -/
def Xpt.shiftBits : Nat → Byte → Xpt → Xpt
  | 0, _, x => x
  | i + 1, rx, x =>
    Xpt.shiftBits i rx (Xpt.fall (Fin.ofNat 9 i) (Xpt.rise i (rx.getLsbD i) (Xpt.drive i x)))

/-- One byte exchange at the level of the pins: load the byte, eight bit cycles, then `MOSI <- 1` (R193, R196)
and the received byte in RXDATA (R192). -/
def Xpt.shiftByte (tx rx : Byte) (x : Xpt) : Xpt :=
  let y := Xpt.shiftBits 8 rx { x with tx := tx, bit := 8 }
  { y with mosi := true, rxdata := y.rx }

/-- One byte exchange in one atomic step (R192): the lines rest (R196), no bit is left (R40), and XPT_TX, XPT_RX
keep the bytes of the exchange (DESIGN CHOICE, log entry 7). R193 makes this the result of the eight bit cycles. -/
def Xpt.exchange (tx rx : Byte) (x : Xpt) : Xpt :=
  { csN := x.csN, sck := false, mosi := true, rxdata := rx, bit := 0, tx := tx, rx := rx }

/-! ## The primitives -/

/-- The exchanges of a transcript: `history` (R192, R198). -/
def exchanges : List BusEvent → List Exchange
  | [] => []
  | .cs _ :: es => exchanges es
  | .xfer x :: es => x :: exchanges es

/-- `history` (R198). -/
def State.history (s : State) : List Exchange := exchanges s.env.transcript

/-- `CARD(history, CS_N, tx)` (R195): the answer already decided, else the oracle's
(DESIGN CHOICE, log entry 2). -/
def cardAnswer (tx : Byte) (s : State) : Byte :=
  match s.env.cardScript with
  | rx :: _ => rx
  | [] => Config.card s.history s.xpt.csN tx

/-- `XFER(tx)` (R192), one atomic step. The received byte is RXDATA of the result. -/
def xfer (tx : Byte) (s : State) : State :=
  let rx := cardAnswer tx s
  (s.withXpt (s.xpt.exchange tx rx)).withEnv
    { s.env with
      transcript := s.env.transcript ++ [.xfer ⟨s.xpt.csN, tx, rx⟩],
      cardScript := s.env.cardScript.tail }

/-- The byte the exchange just made received (R192: `RXDATA <- rx ; return rx`). -/
def received (s : State) : Byte := s.xpt.rxdata

/-- `CS(v)` (R194), one atomic step; an event of the transcript (R198). -/
def setCs (v : Bool) (s : State) : State :=
  (s.withXpt { s.xpt with csN := v }).withEnv
    { s.env with transcript := s.env.transcript ++ [.cs v] }

/-! ## The commands -/

/-- XPT_XFER's accept action (R191). -/
def acceptXptXfer (t : Byte) (s : State) : State :=
  (s.withIo { s.ioseq with arg := t.setWidth 32 }).startIo .xpt1

/-- IOSEQ's step at XPT.1 (R191). -/
def stepXpt1 (s : State) : State := (xfer (s.ioseq.arg.extractLsb' 0 8) s).finishIo

/-- XPT_CS (R190). -/
def execXptCs (c : Bool) (s : State) : Host.Outcome State Fault Refusal :=
  .next (issue .io true true (setCs c) s)

/-- XPT_XFER (R191). -/
def execXptXfer (t : Byte) (s : State) : Host.Outcome State Fault Refusal :=
  .next (issue .io true true (acceptXptXfer t) s)

end Sys2Proof.Machine
end

