-- ==== Sys2Proof/Machine/Storage.lean ====
section
/-! DEFINITION. BSC: IOSEQ's steps of SEND_CMD, CMD_END, INIT, READ_SECTOR and WRITE_SECTOR (42_storage.md R210
to R225), and the meanings of BSC_INIT, BSC_READ and BSC_WRITE (R214, R226, R227). Each function is one atomic
IOSEQ step (DEDUCED, log entry 8). -/

namespace Sys2Proof.Machine

/-! ## SEND_CMD and CMD_END -/

/-- Where IOSEQ goes when SEND_CMD returns the status `r`: CMD_END comes first in R217, R219 and R220, the test
of the status first in R218, R222 and R223. -/
def afterSend (k : Site) (r : Byte) : IoPos :=
  match k with
  | .cmd0 n => .close (.cmd0 n r) .e1
  | .cmd8 => .test .cmd8 r
  | .cmd55 => .close (.cmd55 r) .e1
  | .acmd41 => .close (.acmd41 r) .e1
  | .cmd16 => .close (.cmd16 r) .e1
  | .cmd17 c => .test (.cmd17 c) r
  | .cmd24 => .test .cmd24 r

/-- Where IOSEQ goes when READ_SECTOR returns (R226; 43_streaming.md R252, R254). -/
def afterRead : ReadFor → IoPos
  | .host => .readReturn
  | .prime0 => .rd1 .prime1
  | .prime1 => .p3
  | .refill => .l5

/-- Where IOSEQ goes when CMD_END returns. -/
def afterClose (k : CloseSite) : IoPos :=
  match k with
  | .cmd0 n r => .test (.cmd0 n) r
  | .cmd8Failed => .initReturn (some .cmd8)
  | .cmd8 => .send .cmd55 .s1
  | .cmd55 r => .test .cmd55 r
  | .acmd41 r => .test .acmd41 r
  | .cmd16 r => .test .cmd16 r
  | .cmd17 c => afterRead c
  | .cmd24 => .writeReturn

/-- S8: one exchange of R1_POLL (R211): done at the first byte with bit 7 = 0. -/
def stepPoll (k : Site) (s : State) : State :=
  let s1 := xfer Config.fill s
  if (received s1).getLsbD 7 then s1.goto (.send k .s8) else s1.goto (afterSend k (received s1))

/-- One step of SEND_CMD (R210). -/
def stepSend (k : Site) (p : SendPos) (s : State) : State :=
  match p with
  | .s1 => (setCs false s).goto (.send k .s2)
  | .s2 => (xfer (sendByte k .s2 s) s).goto (.send k .s3)
  | .s3 => (xfer (sendByte k .s3 s) s).goto (.send k .s4)
  | .s4 => (xfer (sendByte k .s4 s) s).goto (.send k .s5)
  | .s5 => (xfer (sendByte k .s5 s) s).goto (.send k .s6)
  | .s6 => (xfer (sendByte k .s6 s) s).goto (.send k .s7)
  | .s7 => (xfer (sendByte k .s7 s) s).goto (.send k .s8)
  | .s8 => stepPoll k s

/-- One step of CMD_END (R212). -/
def stepClose (k : CloseSite) (p : ClosePos) (s : State) : State :=
  match p with
  | .e1 => (setCs true s).goto (.close k .e2)
  | .e2 => (xfer Config.fill s).goto (afterClose k)

/-! ## INIT -/

/-- I1's `CS(1)` (R216). -/
def stepI1Cs (s : State) : State := (setCs true s).goto (.i1clk 0)

/-- One idle clock of I1; after `INIT_IDLE_BYTES` of them, the first CMD0 frame (R216, R217). -/
def stepI1Clk (sent : Nat) (s : State) : State :=
  (xfer Config.fill s).goto
    (if sent + 1 < Config.initIdleBytes then .i1clk (sent + 1) else .send (.cmd0 1) .s1)

/-- One trailing byte of CMD8, four in all, then CMD_END (R218). -/
def stepI3Trail (got : Nat) (s : State) : State :=
  (xfer Config.fill s).goto (if got + 1 < 4 then .i3trail (got + 1) else .close .cmd8 .e1)

/-- The line after SEND_CMD that tests the status (R217 to R220, R222, R223). A fatal error is raised in this
very step (60_exceptions.md R286). -/
def stepTest (k : Site) (r : Byte) (s : State) : State :=
  match k with
  | .cmd0 n =>
    if r = Config.tokIdle then s.goto (.send .cmd8 .s1)
    else if n < Config.cmd0MaxAttempts then s.goto (.send (.cmd0 (n + 1)) .s1)
    else s.goto (.initReturn (some .cmd0))
  | .cmd8 => if r = Config.tokIdle then s.goto (.i3trail 0) else s.goto (.close .cmd8Failed .e1)
  | .cmd55 => if r = Config.tokIdle then s.goto (.send .acmd41 .s1) else s.goto (.initReturn (some .cmd55))
  | .acmd41 => if r = Config.tokIdle then s.goto (.send .cmd55 .s1) else s.goto (.send .cmd16 .s1)
  | .cmd16 => if r = Config.tokReady then s.goto (.initReturn none) else s.goto (.initReturn (some .cmd16))
  | .cmd17 c => if r = Config.tokReady then s.goto (.rd3 c) else raiseFatal .readCmdRejected s
  | .cmd24 => if r = Config.tokReady then s.goto .w3 else raiseFatal .writeCmdRejected s

/-- The session INIT's result stands for (R214, R221). -/
def initSession : Option InitFailure → Session
  | none => .ready
  | some f => .failed f

/-- INIT returns: one step records the session and ends BSC_INIT (R214). -/
def stepInitReturn (f : Option InitFailure) (s : State) : State :=
  (s.withSession (initSession f)).finishIo

/-! ## READ_SECTOR -/

/-- RD1: one dummy clock (R222). -/
def stepRd1 (c : ReadFor) (s : State) : State := (xfer Config.fill s).goto (.send (.cmd17 c) .s1)

/-- RD3: one exchange of the start-token poll (R222). -/
def stepRd3 (c : ReadFor) (s : State) : State :=
  let s1 := xfer Config.fill s
  if received s1 = Config.tokStart then s1.goto (.rd4 c 0) else s1.goto (.rd3 c)

/-- RD4: one data byte, written into the buffer in the same step (R222). -/
def stepRd4 (c : ReadFor) (i : SectorIdx) (s : State) : State :=
  let s1 := xfer Config.fill s
  (s1.writeCell (cellAddr (readBuf c s) i) (received s1)).goto
    (if i = 511 then .rd5 c false else .rd4 c (i + 1))

/-- RD5: the two CRC bytes, discarded (R222). -/
def stepRd5 (c : ReadFor) (second : Bool) (s : State) : State :=
  (xfer Config.fill s).goto (if second then .close (.cmd17 c) .e1 else .rd5 c true)

/-- BSC_READ ends (R226). -/
def stepReadReturn (s : State) : State := s.finishIo

/-! ## WRITE_SECTOR -/

/-- W1: one dummy clock (R223). -/
def stepW1 (s : State) : State := (xfer Config.fill s).goto (.send .cmd24 .s1)

/-- W3: the start-block token (R223). -/
def stepW3 (s : State) : State := (xfer Config.tokWStart s).goto (.w4 0)

/-- W4: one data byte; the cell is read as it is sent (R223, 20_memory.md R88). -/
def stepW4 (i : SectorIdx) (s : State) : State :=
  let r := readCell (cellAddr s.ioseq.d i) s
  (xfer r.1 r.2).goto (if i = 511 then .w5 else .w4 (i + 1))

/-- W5: one exchange of the data-response poll: done at the first byte that is not 0xFF (R223). -/
def stepW5 (s : State) : State :=
  let s1 := xfer Config.fill s
  if received s1 = 0xFF then s1.goto .w5 else s1.goto (.w6 (received s1))

/-- DATA_RESPONSE(t) (R224): the fatal code of the first check that fails, none if the data is accepted. -/
def dataResponse (t : Byte) : Option FatalCode :=
  let m : Byte := t &&& 0x1F
  if m.getLsbD 0 = false then some .invalidDataResponse
  else if m = Config.drCrc then some .crcError
  else if m = Config.drWErr then some .writeError
  else if m ≠ Config.drAccept then some .unknownError
  else none

/-- W6 (R223, R224). -/
def stepW6 (t : Byte) (s : State) : State :=
  match dataResponse t with
  | some c => raiseFatal c s
  | none => s.goto .w7

/-- W7: one exchange of the busy wait (R225). -/
def stepW7 (s : State) : State :=
  let s1 := xfer Config.fill s
  if received s1 = Config.tokBusy then s1.goto .w7 else s1.goto (.close .cmd24 .e1)

/-- BSC_WRITE ends (R227). -/
def stepWriteReturn (s : State) : State := s.finishIo

/-! ## The commands -/

/-- The card is ready (R226, R227). -/
def sessionReady (s : State) : Bool := s.session == .ready

/-- BSC_INIT's accept action (R214). -/
def acceptBscInit (s : State) : State := (s.withSession .uninitialized).startIo .i1cs

/-- BSC_READ's accept action: latch ARG and d, then RD1 (R226). -/
def acceptBscRead (d : BufIdx) (s : State) : State :=
  (s.withIo { s.ioseq with arg := s.arg, d := d }).startIo (.rd1 .host)

/-- BSC_WRITE's accept action: latch ARG and d, then W1 (R227). -/
def acceptBscWrite (d : BufIdx) (s : State) : State :=
  (s.withIo { s.ioseq with arg := s.arg, d := d }).startIo .w1

/-- BSC_INIT (R214). -/
def execBscInit (s : State) : Host.Outcome State Fault Refusal :=
  .next (issue .io (!sessionReady s) true acceptBscInit s)

/-- BSC_READ (R226). -/
def execBscRead (d : BufIdx) (s : State) : Host.Outcome State Fault Refusal :=
  .next (issue .io (sessionReady s) true (acceptBscRead d) s)

/-- BSC_WRITE (R227). -/
def execBscWrite (d : BufIdx) (s : State) : Host.Outcome State Fault Refusal :=
  .next (issue .io (sessionReady s) true (acceptBscWrite d) s)

end Sys2Proof.Machine
end

