-- ==== Sys2Proof/Machine/Streaming.lean ====
section
/-! DEFINITION. STR: the end of priming and the refill loop (43_streaming.md R252, R254, R255), the drain step
(R253, R258, R261), and the meanings of STR_CFG and STR_START (R250, R251). -/

namespace Sys2Proof.Machine

/-! ## Foreground -/

/-- P3: priming is over, the drain is enabled (R252). -/
def stepP3 (s : State) : State :=
  (s.withStr { s.str with next := 2, state := .active, irqEn := true }).goto .l1

/-- L1: the test, taken when REFILL_REQ = 1 (R254). -/
def stepL1 (s : State) : State := s.goto .l2

/-- L2: `REFILL_REQ <- 0` (R254). -/
def stepL2 (s : State) : State := (s.withStr { s.str with refillReq := false }).goto .l3

/-- L3: latch the buffer now marked Filling, then L4's READ_SECTOR (R254). -/
def stepL3 (s : State) : State :=
  (s.withIo { s.ioseq with tgt := otherBuf s.str.role }).goto (.rd1 .refill)

/-- L5: advance the counter; at the maximum, the terminal stop (R254, R255). -/
def stepL5 (s : State) : State :=
  if s.str.next + 1 = s.str.max then
    (s.withStr { s.str with next := s.str.next + 1, irqEn := false, state := .stopped }).finishIo
  else (s.withStr { s.str with next := s.str.next + 1 }).goto .l1

/-! ## The drain step -/

/-- `emit_out(b)` (00_scope.md R9): the byte on OUT_BYTE, with one OUT_VALID strobe. -/
def emitOut (b : Byte) (s : State) : State :=
  s.withEnv { s.env with outByte := b, outValid := true, emitted := s.env.emitted ++ [b] }

/-- A swap overtakes the refill: the buffer DRAIN enters has not received its sector (R253, R258). -/
def swapGlitches (s : State) : Bool := s.str.refillReq || s.ioseq.pos.refilling

/-- After the byte: the next cursor, or the swap at byte 511 (R253). -/
def advanceCursor (s : State) : State :=
  if s.str.cursor = 511 then
    (s.withGlitch (s.glitch || swapGlitches s)).withStr
      { s.str with role := otherBuf s.str.role, cursor := 0, refillReq := true }
  else s.withStr { s.str with cursor := s.str.cursor + 1 }

/-- The drain step (R253), one atomic step. -/
def drainStep (s : State) : State :=
  let r := readCell (cellAddr s.str.role s.str.cursor) s
  advanceCursor (emitOut r.1 r.2)

/-- DRAIN has a step (R261). -/
def drainEnabled (s : State) : Bool := s.str.irqEn && s.env.outReady && !s.halted

/-- A turn of DRAIN: its step if it has one. -/
def drainAgent (s : State) : State := if drainEnabled s then drainStep s else s

/-! ## The commands -/

/-- STR_CFG's accept action (R250). -/
def acceptStrCfg (s : State) : State := s.withStr { s.str with max := s.arg }

/-- STR_START's accept action (R251). -/
def acceptStrStart (s : State) : State :=
  (s.withStr
    { s.str with
      state := .priming, irqEn := false, role := 0, cursor := 0, refillReq := false, next := 0 }).startIo
    (.rd1 .prime0)

/-- Streaming has never started (R250, R251). -/
def streamIdle (s : State) : Bool := s.str.state == .idle

/-- STR_CFG (R250). -/
def execStrCfg (s : State) : Host.Outcome State Fault Refusal :=
  .next (issue .io (streamIdle s) true acceptStrCfg s)

/-- STR_START (R251). -/
def execStrStart (s : State) : Host.Outcome State Fault Refusal :=
  .next (issue .io (sessionReady s && streamIdle s) (decide (3 ≤ s.str.max.toNat)) acceptStrStart s)

end Sys2Proof.Machine
end

