-- ==== Sys2Proof/Machine/Sequencer.lean ====
section
/-! DEFINITION. IOSEQ: which step its position names (10_state.md R42), and when it has one (43_streaming.md
R254 L1, 60_exceptions.md R287). -/

namespace Sys2Proof.Machine

/-- The step at IOSEQ's position. At `idle` there is none. -/
def ioStep (s : State) : State :=
  match s.ioseq.pos with
  | .idle => s
  | .xpt1 => stepXpt1 s
  | .i1cs => stepI1Cs s
  | .i1clk n => stepI1Clk n s
  | .send k p => stepSend k p s
  | .test k r => stepTest k r s
  | .i3trail n => stepI3Trail n s
  | .close k p => stepClose k p s
  | .initReturn f => stepInitReturn f s
  | .rd1 c => stepRd1 c s
  | .rd3 c => stepRd3 c s
  | .rd4 c i => stepRd4 c i s
  | .rd5 c second => stepRd5 c second s
  | .readReturn => stepReadReturn s
  | .w1 => stepW1 s
  | .w3 => stepW3 s
  | .w4 i => stepW4 i s
  | .w5 => stepW5 s
  | .w6 t => stepW6 t s
  | .w7 => stepW7 s
  | .writeReturn => stepWriteReturn s
  | .p3 => stepP3 s
  | .l1 => stepL1 s
  | .l2 => stepL2 s
  | .l3 => stepL3 s
  | .l5 => stepL5 s

/-- IOSEQ has a step: a procedure runs, the block is not halted, and L1 is passed only when REFILL_REQ = 1. -/
def ioEnabled (s : State) : Bool :=
  !s.halted && s.ioseq.pos != .idle && (s.ioseq.pos != .l1 || s.str.refillReq)

/-- A turn of IOSEQ: its step if it has one. -/
def ioAgent (s : State) : State := if ioEnabled s then ioStep s else s

end Sys2Proof.Machine
end

