-- ==== Sys2Proof/Machine/Dispatch.lean ====
section
/-! DEFINITION. One arm per command of spec/opcode_table.json. -/

namespace Sys2Proof.Machine

def exec (i : Instr) (s : State) : Host.Outcome State Fault Refusal :=
  match i with
  | .modInit r ssel => Sys2Proof.Machine.execModInit r ssel s
  | .modPrime => Sys2Proof.Machine.execModPrime s
  | .modSample smp => Sys2Proof.Machine.execModSample smp s
  | .modStep smp e => Sys2Proof.Machine.execModStep smp e s
  | .modEnd => Sys2Proof.Machine.execModEnd s
  | .xptCs c => Sys2Proof.Machine.execXptCs c s
  | .xptXfer t => Sys2Proof.Machine.execXptXfer t s
  | .bscInit => Sys2Proof.Machine.execBscInit s
  | .bscRead d => Sys2Proof.Machine.execBscRead d s
  | .bscWrite d => Sys2Proof.Machine.execBscWrite d s
  | .strCfg => Sys2Proof.Machine.execStrCfg s
  | .strStart => Sys2Proof.Machine.execStrStart s

end Sys2Proof.Machine
end

