-- ==== Sys2Proof/Machine/Bus.lean ====
section
/-! DEFINITION. The host bus: the register window map (20_memory.md R81), the access rules (R82, R85 to R88),
the reads (10_state.md R49 to R61) and the writes, a write of CMD among them (30_encoding.md R114); and what each
agent does in its turn (00_scope.md R6). -/

namespace Sys2Proof.Machine

/-- What stands at an offset (R81). -/
inductive Loc where
  | cmd
  | arg
  | status
  | rxdata
  | accA
  | accB
  | modcfg
  | modout
  | pack
  | modoutCount
  | strMax
  | strNext
  | strCursor
  | modRemain
  | window (a : Nat)
  | unmapped
  deriving DecidableEq, Repr

/-- The register window map (R81), for an offset that is a multiple of 4. -/
def locate (off : Offset) : Loc :=
  if off = 0x000 then .cmd
  else if off = 0x004 then .arg
  else if off = 0x008 then .status
  else if off = 0x00C then .rxdata
  else if off = 0x010 then .accA
  else if off = 0x014 then .accB
  else if off = 0x018 then .modcfg
  else if off = 0x01C then .modout
  else if off = 0x020 then .pack
  else if off = 0x024 then .modoutCount
  else if off = 0x028 then .strMax
  else if off = 0x02C then .strNext
  else if off = 0x030 then .strCursor
  else if off = 0x034 then .modRemain
  else if 0x800 ≤ off.toNat ∧ off.toNat < 0xC00 then .window off.toNat
  else .unmapped

/-- A host address of the window (R81). -/
def hostAddress (off : Offset) : Nat := Config.base + off.toNat

/-- The access moves exactly 32 bits at a multiple of 4 (R82). -/
def aligned (off : Offset) (bytes : Nat) : Bool := bytes == 4 && off.toNat % 4 == 0

/-- The buffer window is open (R86). -/
def windowOpen (isWrite : Bool) (s : State) : Bool :=
  !s.ioseq.busy && (s.str.state == .idle || s.str.state == .stopped) && (!s.halted || !isWrite)

/-- A read that errs returns 0 (R85). -/
def failedRead (s : State) : Word × State := (0, accessError s)

/-- Read what stands at a place of the window. Only MODOUT has a side effect (R87). -/
def readLoc (l : Loc) (s : State) : Word × State :=
  match l with
  | .cmd => failedRead s
  | .arg => (s.arg, s)
  | .status => (statusWord s, s)
  | .rxdata => (rxdataWord s, s)
  | .accA => (s.mod.a, s)
  | .accB => (s.mod.b, s)
  | .modcfg => (modcfgWord s, s)
  | .modout => popModout s
  | .pack => (packWord s, s)
  | .modoutCount => (modoutCountWord s, s)
  | .strMax => (s.str.max, s)
  | .strNext => (s.str.next, s)
  | .strCursor => (cursorWord s, s)
  | .modRemain => (s.mod.remain, s)
  | .window a => if windowOpen false s then readWord a s else failedRead s
  | .unmapped => failedRead s

/-- `MemRead(off, 4)`, and every access that is not allowed (R82, R85). -/
def busRead (off : Offset) (bytes : Nat) (s : State) : Word × State :=
  if aligned off bytes then readLoc (locate off) s else failedRead s

/-- The data of a read goes to HOST on the bus (00_scope.md R7). -/
def deliver (r : Word × State) : State := r.2.withEnv { r.2.env with rdata := r.1 }

/-- A write of CMD (30_encoding.md R114): decode, then the command's meaning; a word that is no command is
refused. -/
def writeCmd (w : Word) (s : State) : Host.Outcome State Fault Refusal :=
  match decode w with
  | .ok i => exec i s
  | .error _ => .next (refuseIllegal s)

/-- Write what stands at a place of the window: CMD, ARG and the buffer window take a write, the rest is an
access error (R85). -/
def writeLoc (l : Loc) (v : Word) (s : State) : Host.Outcome State Fault Refusal :=
  match l with
  | .cmd => writeCmd v s
  | .arg => .next (s.withArg v)
  | .window a => .next (if windowOpen true s then writeWord a v s else accessError s)
  | .status => .next (accessError s)
  | .rxdata => .next (accessError s)
  | .accA => .next (accessError s)
  | .accB => .next (accessError s)
  | .modcfg => .next (accessError s)
  | .modout => .next (accessError s)
  | .pack => .next (accessError s)
  | .modoutCount => .next (accessError s)
  | .strMax => .next (accessError s)
  | .strNext => .next (accessError s)
  | .strCursor => .next (accessError s)
  | .modRemain => .next (accessError s)
  | .unmapped => .next (accessError s)

/-- `MemWrite(off, 4, v)`, and every access that is not allowed (R82, R85). -/
def busWrite (off : Offset) (bytes : Nat) (v : Word) (s : State) : Host.Outcome State Fault Refusal :=
  if aligned off bytes then writeLoc (locate off) v s else .next (accessError s)

/-- A turn of HOST: one access (00_scope.md R6). -/
def hostAgent (a : Access) (s : State) : Host.Outcome State Fault Refusal :=
  match a with
  | .read off bytes => .next (deliver (busRead off bytes s))
  | .write off bytes v => busWrite off bytes v s

/-! ## Turns -/

/-- The turn that comes next: the first already decided, else whatever the environment gives
(DESIGN CHOICE, log entry 1). -/
def State.nextTurn (s : State) : Turn :=
  match s.env.turns with
  | t :: _ => t
  | [] => Config.environment s.env.tick

/-- The turn is taken; the strobe of the step before is over. -/
def State.takeTurn (s : State) : State :=
  s.withEnv { s.env with turns := s.env.turns.tail, tick := s.env.tick + 1, outValid := false }

/-- One turn. While RST_N = 0 no agent steps (70_reset_and_hazards.md R320); an agent without a step does
nothing in its turn. A change of OUT_READY is no step of the block's agents, so it can come while RST_N = 0 too (DESIGN
CHOICE, log entry 5). -/
def runTurn (t : Turn) (s : State) : Host.Outcome State Fault Refusal :=
  match t with
  | .rstN level => .next (setRstN level s)
  | .outReady level => .next (s.withEnv { s.env with outReady := level })
  | .host a => if s.env.rstN then hostAgent a s else .next s
  | .mod => .next (if s.env.rstN then modAgent s else s)
  | .ioseq => .next (if s.env.rstN then ioAgent s else s)
  | .drain => .next (if s.env.rstN then drainAgent s else s)

/-- HOST's next access writes a word to CMD, in the very next step. RST_N is high, or HOST would have no step. -/
def placeCommand (w : Word) (s : State) : State :=
  s.withEnv { s.env with turns := .host (.write 0x000 4 w) :: s.env.turns, rstN := true }

end Sys2Proof.Machine
end

