-- ==== Sys2Proof/Machine/Step.lean ====
section
/-! DEFINITION. One step of the machine: one turn (00_scope.md R6). -/

namespace Sys2Proof.Machine

/-- One atomic step of one agent, or one event at a pin. -/
def step (s : State) : Host.Outcome State Fault Refusal := runTurn s.nextTurn s.takeTurn

/-- `s` with the instruction whose bits are `w` as HOST's next write of CMD (DESIGN CHOICE, log entry 9). -/
def State.withFetchWord (s : State) (nbits w : Nat) : State := placeCommand (tableWord nbits w) s

end Sys2Proof.Machine
end

