-- ==== Sys2Proof/Machine/Derived.lean ====
section
/-! DEFINITION. The derived numbers of the spec: the baud divisor and rates (40_modulator.md R155, R156), the
stream's length and the sample a step uses (R153, R154), the MAX contract and the played length (43_streaming.md
R259, R260), the exchange counts (42_storage.md R231), the place of a stream byte (20_memory.md R84) and the bits
OUTDEV puts on its line (43_streaming.md R264). The block computes none of them. -/

namespace Sys2Proof.Machine

/-- `DIV(F, S, R) = floor(F / (4·S·R) - 1/2)` (R155), over integers: `floor((F - 2·S·R) / (4·S·R))`. R155 applies
only where DIV is not negative and says that F < 2·S·R is not in the source; there the value is the formula's
negative one, as at S·R = 0 it is 0 (DESIGN CHOICE, log entry 21). -/
def baudDivisor (f s r : Nat) : Int := ((f : Int) - 2 * s * r) / (4 * s * r)

/-- The integrator's divisor for the parameter F_REF (R155). -/
def configuredDivisor (ssel : Bool) (r : Nat) : Int := baudDivisor Config.fRef (sampleRate ssel) r

/-- The PDM bit rate, in bits per second (R156). -/
def pdmBitRate (s r : Nat) : Nat := 2 * s * r

/-- The sample that post-priming step `k` uses (R153). -/
def sampleOfStep (r k : Nat) : Nat := k / (2 * r)

/-- The stream's length in bits: `2·R·N` (R154). -/
def streamBits (r n : Nat) : Nat := 2 * r * n

/-- The stream's length in bytes: `floor(2·R·N / 8)` (R154). -/
def streamBytes (r n : Nat) : Nat := streamBits r n / 8

/-- The bits MOD_END discards: `(2·R·N) mod 8` (R154). -/
def droppedBits (r n : Nat) : Nat := streamBits r n % 8

/-- The sectors a stream takes: `K = ceil(bytes / 512)` (R260). -/
def streamSectors (bytes : Nat) : Nat := (bytes + 511) / 512

/-- The maximum sector count that plays a stream: `MAX = K + 2` (R260), as a number without a bound: the
spec does not say what HOST does where it does not fit the 32 bits of MAX (DESIGN CHOICE, log entry 24). -/
def contractMax (bytes : Nat) : Nat := streamSectors bytes + 2

/-- The least number of bytes played at the terminal stop of a run without a glitch (R259). -/
def playedAtLeast (max : Nat) : Nat := 512 * (max - 2)

/-- The greatest number of bytes played at the terminal stop of a run without a glitch (R259). -/
def playedAtMost (max : Nat) : Nat := 512 * max - 1

/-- The sector and the byte in it where byte `j` of the stream stands (R84). -/
def streamPlace (j : Nat) : Nat × Nat := (j / 512, j % 512)

/-- The bits of a byte on a serial line, bit 7 first (20_memory.md R84; 43_streaming.md R264). -/
def lineBits (b : Byte) : List Bool := [7, 6, 5, 4, 3, 2, 1, 0].map (fun i => b.getLsbD i)

/-- What OUTDEV has shifted onto the serial line: each strobed byte, MSB first (R264). -/
def serialLine (s : State) : List Bool := s.env.emitted.flatMap lineBits

/-- Exchanges of a command with `p` status polls, its CMD_END included (R231). -/
def commandExchanges (p : Nat) : Nat := 6 + p + 1

/-- Exchanges of READ_SECTOR with `p` status polls and `q` start-token polls (R231). -/
def readExchanges (p q : Nat) : Nat := 1 + (6 + p) + q + 512 + 2 + 1

/-- Exchanges of WRITE_SECTOR with `p` status polls, `u` data-response polls and `v` busy polls (R231). -/
def writeExchanges (p u v : Nat) : Nat := 1 + (6 + p) + 1 + 512 + u + v + 1

end Sys2Proof.Machine
end

