-- ==== Sys2Proof/Machine/Container.lean ====
section
/-! DEFINITION. The host-side sample container (40_modulator.md R159 to R161): the contract for the samples HOST
feeds to MOD. It binds the host; the block does not parse it. -/

namespace Sys2Proof.Machine

/-- Why the host refuses an input (R160). The two failures of host software that R160 also lists, memory
allocation and output write, are no property of the input (00_scope.md R4). -/
inductive ContainerError where
  | malformedSignature
  | unsupportedFormatTag
  | channelCount
  | sampleRate
  | bitDepth
  | truncatedData
  deriving DecidableEq, Repr

/-- What the host takes from an input: the rate selector and the samples (R159, R161). -/
structure PcmInput where
  ssel : Bool
  samples : List Int
  deriving DecidableEq, Repr

/-- Byte `i` of the file, 0 past its end. -/
def fileByte (f : List Byte) (i : Nat) : Byte := f.getD i 0

/-- A little-endian 16-bit field (R159). -/
def fileLe16 (f : List Byte) (i : Nat) : BitVec 16 := fileByte f (i + 1) ++ fileByte f i

/-- A little-endian 32-bit field (R159). -/
def fileLe32 (f : List Byte) (i : Nat) : Word := fileLe16 f (i + 2) ++ fileLe16 f i

/-- The four bytes at `i` are the given signature. -/
def signatureAt (f : List Byte) (i : Nat) (sig : List Byte) : Bool := (f.drop i).take 4 == sig

/-- The four signatures in ASCII and the format-chunk size (R159). A file shorter than its header fails here
(DESIGN CHOICE, log entry 10). -/
def wellSigned (f : List Byte) : Bool :=
  decide (44 ≤ f.length) && signatureAt f 0 [0x52, 0x49, 0x46, 0x46] && signatureAt f 8 [0x57, 0x41, 0x56, 0x45] &&
    signatureAt f 12 [0x66, 0x6D, 0x74, 0x20] && fileLe32 f 16 == 16 && signatureAt f 36 [0x64, 0x61, 0x74, 0x61]

/-- The data length in bytes (R159, offset 40). -/
def dataLength (f : List Byte) : Nat := (fileLe32 f 40).toNat

/-- Sample `i`: `sext_16({byte[45+2i], byte[44+2i]})` (R161). -/
def sampleAt (f : List Byte) (i : Nat) : Int := (fileLe16 f (44 + 2 * i)).toInt

/-- Read an input: refuse it by R160, in the order of its list, or take `N = floor(L / 2)` samples (R161). -/
def readContainer (f : List Byte) : Except ContainerError PcmInput :=
  if wellSigned f = false then .error .malformedSignature
  else if fileLe16 f 20 ≠ 1 then .error .unsupportedFormatTag
  else if fileLe16 f 22 ≠ 1 then .error .channelCount
  else if fileLe32 f 24 ≠ 8000 ∧ fileLe32 f 24 ≠ 16000 then .error .sampleRate
  else if fileLe16 f 34 ≠ 16 then .error .bitDepth
  else if f.length < 44 + dataLength f then .error .truncatedData
  else .ok { ssel := fileLe32 f 24 == 16000, samples := (List.range (dataLength f / 2)).map (sampleAt f) }

end Sys2Proof.Machine
end

