-- ==== Sys2Proof/Machine/HostProgram.lean ====
section
/-! DEFINITION. Host programs: their lines (30_encoding.md R117, R118), how a program runs beside the block, one
access a HOST step, and the two procedures the spec gives, the encoding of an input (40_modulator.md R163) and the
streaming boot (70_reset_and_hazards.md R324). -/

namespace Sys2Proof.Machine

/-! ## Lines -/

/-- One line of a host program: the three of R117 and R118, then the forms the two procedures need. -/
inductive HostLine where
  /-- `WR off, v` (R117) -/
  | wr (off : Offset) (v : Word)
  /-- `RD off` (R117) -/
  | rd (off : Offset)
  /-- `POLL off, m, v` (R118): RD again and again until the masked value is `v` -/
  | poll (off : Offset) (m v : Word)
  /-- the same, with a POP after each read that goes on waiting (R163, step 4) -/
  | pollPopping (off : Offset) (m v : Word)
  /-- `RD off`, and stop unless the masked value is `v` (R324: "require ... else stop") -/
  | require (off : Offset) (m v : Word)
  /-- POLL, and stop where the second masked value is `stopV` (R324: "or watch") -/
  | watch (off : Offset) (m v stopM stopV : Word)
  deriving DecidableEq, Repr

/-- The access a line makes. -/
def HostLine.access : HostLine → Access
  | .wr off v => .write off 4 v
  | .rd off => .read off 4
  | .poll off _ _ => .read off 4
  | .pollPopping off _ _ => .read off 4
  | .require off _ _ => .read off 4
  | .watch off _ _ _ _ => .read off 4

/-- Whether a line is done once its access has returned `x` (R118: until `(x AND m) = v`). -/
def HostLine.done (l : HostLine) (x : Word) : Bool :=
  match l with
  | .wr _ _ => true
  | .rd _ => true
  | .poll _ m v => x &&& m == v
  | .pollPopping _ m v => x &&& m == v
  | .require _ m v => x &&& m == v
  | .watch _ m v _ _ => x &&& m == v

/-- Whether a line that is not done stops the program. -/
def HostLine.stops (l : HostLine) (x : Word) : Bool :=
  match l with
  | .require _ _ _ => true
  | .watch _ _ _ stopM stopV => x &&& stopM == stopV
  | _ => false

/-- `POP` (R118). -/
def pop : HostLine := .rd 0x01C

/-- What a line that goes on waiting does next: its read again, after a POP in step 4 of R163. -/
def HostLine.repetition (l : HostLine) : List HostLine :=
  match l with
  | .pollPopping _ _ _ => [pop, l]
  | _ => [l]

/-! ## Running a program -/

/-- Where a program stands: the lines still to run, or the line it stopped at with the value that line read (for a
failed card, the STATUS that holds the reason). -/
inductive HostRun where
  | running (lines : List HostLine)
  | stopped (line : HostLine) (x : Word)
  deriving DecidableEq, Repr

/-- HOST issues no further access (70_reset_and_hazards.md R332). -/
def HostRun.over : HostRun → Bool
  | .running [] => true
  | .running (_ :: _) => false
  | .stopped _ _ => true

/-- Where the program stands once line `l`, with `rest` after it, has read `x`. -/
def HostLine.after (l : HostLine) (rest : List HostLine) (x : Word) : HostRun :=
  if l.done x then .running rest
  else if l.stops x then .stopped l x
  else .running (l.repetition ++ rest)

/-- The block with the program HOST runs on it. The program is no state of the block. -/
structure Hosted where
  run : HostRun
  machine : State
  deriving DecidableEq, Repr

/-- HOST's turn, which comes next, makes the line's access. -/
def placeLine (l : HostLine) (s : State) : State :=
  s.withEnv { s.env with turns := .host l.access :: s.env.turns.tail }

/-- A step of the machine, with where it leaves the program. -/
def Hosted.leave (o : Host.Outcome State Fault Refusal) (run : State → HostRun) :
    Host.Outcome Hosted Fault Refusal :=
  match o with
  | .next t => .next ⟨run t, t⟩
  | .fault f => .fault f
  | .refused r => .refused r

/-- One step beside a host program: in HOST's turn the access is that of the program's next line, and what it read
decides whether the program goes on, repeats the line or stops; a program that is over makes no access, and while
RST_N = 0 the turn passes. The other turns are the machine's (DESIGN CHOICE, log entry 22). -/
def Hosted.step (h : Hosted) : Host.Outcome Hosted Fault Refusal :=
  match h.machine.nextTurn, h.run with
  | .host _, .running (l :: rest) =>
    if h.machine.env.rstN then
      Hosted.leave (Machine.step (placeLine l h.machine)) (fun t => l.after rest t.env.rdata)
    else .next ⟨h.run, h.machine.takeTurn⟩
  | .host _, _ => .next ⟨h.run, h.machine.takeTurn⟩
  | _, _ => Hosted.leave (Machine.step h.machine) (fun _ => h.run)

/-! ## Commands and pseudo-instructions -/

/-- A command mnemonic with operands means `WR 0x000, enc` (R117). -/
def command (i : Instr) : HostLine := .wr 0x000 (encode i)

/-- `WAIT_MOD` (R118). -/
def waitMod : HostLine := .poll 0x008 0x1 0
/-- `WAIT_IO` (R118). -/
def waitIo : HostLine := .poll 0x008 0x2 0
/-- `BSC_READ d, lba` (R118). -/
def readSectorLines (d : BufIdx) (lba : Word) : List HostLine := [.wr 0x004 lba, command (.bscRead d)]
/-- `BSC_WRITE d, lba` (R118). -/
def writeSectorLines (d : BufIdx) (lba : Word) : List HostLine := [.wr 0x004 lba, command (.bscWrite d)]
/-- `STR_CFG max` (R118). -/
def strCfgLines (max : Word) : List HostLine := [.wr 0x004 max, command .strCfg]

/-! ## Encoding an input -/

/-- `WAIT_MOD`, draining MQ: a POP after each read that finds MOD busy, which ends the hold of R150 (R163, step 4;
when to POP is a DESIGN CHOICE, log entry 22). -/
def waitModPopping : HostLine := .pollPopping 0x008 0x1 0
/-- `POP until VALID = 0` (R163, step 6). -/
def popAll : HostLine := .poll 0x01C 0x100 0

/-- The host procedure that encodes one input (R163), steps 2 to 6. A ratio above 65535 is encoded modulo 2^16 (DESIGN
CHOICE, log entry 24). -/
def encodeLines (r : Nat) (input : PcmInput) : List HostLine :=
  [command (.modInit r input.ssel), command .modPrime, waitMod] ++
    input.samples.flatMap (fun smp => [command (.modSample smp), waitModPopping]) ++ [command .modEnd, popAll]

/-- The whole of R163: an input that fails its validation starts no program (step 1). -/
def encodeFile (r : Nat) (file : List Byte) : Except ContainerError HostRun :=
  match readContainer file with
  | .ok input => .ok (.running (encodeLines r input))
  | .error e => .error e

/-! ## The streaming boot -/

/-- HOST checks `ERR` = STATUS[23:20] after a CMD write (R324). -/
def checkErr : HostLine := .require 0x008 0x00F00000 0
/-- `require STATUS[7:5] = 1 (Ready)` (R324). -/
def requireReady : HostLine := .require 0x008 0x000000E0 0x00000020
/-- STR_STATE = STOPPED, or STATUS[14] for HALTED, which stops the program (R324). -/
def waitStopped : HostLine := .watch 0x008 0x300 0x300 0x00004000 0x00004000

/-- The streaming boot for a stream of `bytes` bytes at LBA 0 (R324), with its checks. Where `K + 2` is 2^32 or more it
is written modulo 2^32 (DESIGN CHOICE, log entry 24). -/
def streamBootLines (bytes : Nat) : List HostLine :=
  [command .bscInit, checkErr, waitIo, requireReady] ++ strCfgLines (BitVec.ofNat 32 (contractMax bytes)) ++
    [checkErr, command .strStart, checkErr, waitStopped]

end Sys2Proof.Machine
end

