-- ==== Sys2Proof/Safety.lean ====
section
/-! DEFINITION. The terms claims use: invariants of the machine, records a claim takes as premises, ends of a run
(70_reset_and_hazards.md R332), runs and weak fairness (R331). -/

namespace Sys2Proof.Machine

/-! ## Invariants -/

/-- The buffer memory is in its canonical form. -/
def memoryCanonical (s : State) : Prop := Memory.wf s.bufs

/-- Between steps the card's lines rest: `SCK = 0`, `MOSI = 1`, no bit left to shift (41_transport.md R196;
10_state.md R40). -/
def linesAtRest (s : State) : Prop := s.xpt.sck = false ∧ s.xpt.mosi = true ∧ s.xpt.bit = 0

/-- Once halted, MOD, IOSEQ and DRAIN are stopped (60_exceptions.md R286, R287). -/
def haltedIsQuiet (s : State) : Prop :=
  s.halted = true →
    s.mod.busy = false ∧ s.ioseq.busy = false ∧ s.ioseq.pos = .idle ∧ s.str.irqEn = false

/-- FATAL_CODE records a reason exactly while halted, and code 2 is never written (10_state.md R46;
60_exceptions.md R285). -/
def fatalLatch (s : State) : Prop :=
  (s.halted = true ↔ s.fatalCode ≠ .none) ∧ s.fatalCode ≠ .readStartTokenMissing

/-- Without a glitch, L4 never writes the transmitting buffer (43_streaming.md R256). -/
def ownership (s : State) : Prop :=
  s.glitch = false → s.ioseq.pos.inL4 = true → s.ioseq.tgt ≠ s.str.role

/-- MOD is busy exactly while a command's kind is recorded, and then steps remain (10_state.md R37). -/
def modBusyWhileStepsRemain (s : State) : Prop :=
  (s.mod.busy = true ↔ s.mod.kind ≠ .none) ∧ (s.mod.busy = true → s.mod.remain ≠ 0)

/-- What a running MOD command implies of the phase and the emit flag (40_modulator.md R142 to R144). -/
def modKindFitsPhase (s : State) : Prop :=
  (s.mod.kind = .prime → s.mod.phase = .configured ∧ s.mod.curE = false ∧ s.mod.curS = 0) ∧
  (s.mod.kind = .sample → s.mod.phase = .primed ∧ s.mod.curE = true) ∧
  (s.mod.kind = .step → s.mod.phase = .configured ∨ s.mod.phase = .primed)

/-- MQ never holds more than MOD_OUT_DEPTH bytes (40_modulator.md R150). -/
def queueWithinDepth (s : State) : Prop :=
  match Config.modOutDepth with
  | .unbounded => True
  | .bounded pred => s.mod.mq.length ≤ pred + 1

/-- IO_BUSY is 1 exactly while IOSEQ runs a procedure (10_state.md R42). -/
def ioBusyWhileRunning (s : State) : Prop := s.ioseq.busy = true ↔ s.ioseq.pos ≠ .idle

/-- The drain is enabled exactly while streaming is active and the block is not halted (60_exceptions.md R290). -/
def drainOnlyWhileActive (s : State) : Prop :=
  s.str.irqEn = true ↔ s.str.state = .active ∧ s.halted = false

/-- IO_POS is on a line of INIT (42_storage.md R215). -/
def IoPos.inInit : IoPos → Bool
  | .i1cs => true
  | .i1clk _ => true
  | .i3trail _ => true
  | .initReturn _ => true
  | .send (.cmd17 _) _ => false
  | .send .cmd24 _ => false
  | .send _ _ => true
  | .test (.cmd17 _) _ => false
  | .test .cmd24 _ => false
  | .test _ _ => true
  | .close (.cmd17 _) _ => false
  | .close .cmd24 _ => false
  | .close _ _ => true
  | _ => false

/-- INIT runs only in the session `Uninitialized` (42_storage.md R214, R229). -/
def initRunsUninitialized (s : State) : Prop :=
  s.ioseq.pos.inInit = true → s.session = .uninitialized

/-- The loop counters stay in their loops: 100 clocks, 10 CMD0 frames, 4 trailing bytes (42_storage.md R216 to
R218). -/
def IoPos.countersFit : IoPos → Bool
  | .i1clk n => n < Config.initIdleBytes
  | .i3trail n => n < 4
  | .send (.cmd0 n) _ => 1 ≤ n && n ≤ Config.cmd0MaxAttempts
  | .test (.cmd0 n) _ => 1 ≤ n && n ≤ Config.cmd0MaxAttempts
  | .close (.cmd0 n _) _ => 1 ≤ n && n ≤ Config.cmd0MaxAttempts
  | _ => true

/-- At most `CMD0_MAX_ATTEMPTS` CMD0 frames are sent (42_storage.md R217). -/
def loopCountersFit (s : State) : Prop := s.ioseq.pos.countersFit = true

/-- IO_POS is inside READ_SECTOR with this caller. -/
def IoPos.inReadFor (c : ReadFor) : IoPos → Bool
  | .send (.cmd17 x) _ => x == c
  | .test (.cmd17 x) _ => x == c
  | .close (.cmd17 x) _ => x == c
  | .rd1 x => x == c
  | .rd3 x => x == c
  | .rd4 x _ => x == c
  | .rd5 x _ => x == c
  | _ => false

/-- IO_POS is on a line of priming (43_streaming.md R252). -/
def IoPos.inPriming (p : IoPos) : Bool := p.inReadFor .prime0 || p.inReadFor .prime1 || p == .p3

/-- IO_POS is on a line of the refill loop (43_streaming.md R254). -/
def IoPos.inRefillLoop (p : IoPos) : Bool :=
  p.inReadFor .refill || p == .l1 || p == .l2 || p == .l3 || p == .l5

/-- While not halted, STR_STATE is PRIMING exactly while IOSEQ primes, and ACTIVE exactly while it runs the refill
loop (43_streaming.md R251, R252, R254, R255). -/
def streamFollowsSequencer (s : State) : Prop :=
  s.halted = false →
    ((s.str.state = .priming ↔ s.ioseq.pos.inPriming = true) ∧
     (s.str.state = .active ↔ s.ioseq.pos.inRefillLoop = true))

/-- IO_POS is on a line between SEND_CMD's `CS(0)` and CMD_END's `CS(1)` (42_storage.md R210, R212, R217 to
R223): the card is selected there. -/
def IoPos.inBracket : IoPos → Bool
  | .send _ .s1 => false
  | .send _ _ => true
  | .test .cmd8 _ => true
  | .test (.cmd17 _) _ => true
  | .test .cmd24 _ => true
  | .i3trail _ => true
  | .close _ .e1 => true
  | .rd3 _ => true
  | .rd4 _ _ => true
  | .rd5 _ _ => true
  | .w3 => true
  | .w4 _ => true
  | .w5 => true
  | .w6 _ => true
  | .w7 => true
  | _ => false

/-- Inside a bracket the card is selected (42_storage.md R210; 60_exceptions.md R286: "every fatal error is raised
inside a bracket"). -/
def selectedInsideBracket (s : State) : Prop := s.ioseq.pos.inBracket = true → s.xpt.csN = false

/-- IOSEQ's part of the invariants: none of them is kept alone, all of them together are. -/
def sequencerInvariant (s : State) : Prop :=
  ioBusyWhileRunning s ∧ initRunsUninitialized s ∧ loopCountersFit s ∧ drainOnlyWhileActive s ∧
    streamFollowsSequencer s ∧ selectedInsideBracket s

/-- The state without what a received byte leaves in RXDATA, in XPT_RX and in the transcript (41_transport.md
R195), and without CARD's answers already decided, which are the model's own (log entry 2). -/
def forgetReceived (s : State) : State :=
  (s.withXpt { s.xpt with rxdata := 0, rx := 0 }).withEnv { s.env with transcript := [], cardScript := [] }

/-! ## What one line leaves -/

/-- The state after a line of IOSEQ that exchanges one byte and goes on at `p`: CARD's answer in RXDATA, one more
exchange in the transcript, the lines at rest, and nothing else changed (41_transport.md R192, R196). What XPT_TX
and XPT_RX keep and the list of decided answers are the model's (log entries 7, 2). -/
def afterExchange (tx : Byte) (p : IoPos) (s : State) : State :=
  { s with
    xpt :=
      { csN := s.xpt.csN, sck := false, mosi := true, rxdata := cardAnswer tx s, bit := 0, tx := tx,
        rx := cardAnswer tx s }
    ioseq := { s.ioseq with pos := p }
    env :=
      { s.env with
        transcript := s.env.transcript ++ [.xfer ⟨s.xpt.csN, tx, cardAnswer tx s⟩]
        cardScript := s.env.cardScript.tail } }

/-- The state after a line of IOSEQ that sets the chip select and goes on at `p` (41_transport.md R194, R198). -/
def afterSelect (v : Bool) (p : IoPos) (s : State) : State :=
  { s with
    xpt := { s.xpt with csN := v }
    ioseq := { s.ioseq with pos := p }
    env := { s.env with transcript := s.env.transcript ++ [.cs v] } }

/-- The state after a line of IOSEQ that ends a command: `IO_BUSY <- 0 ; IO_POS <- idle` (42_storage.md R226,
R227). -/
def afterReturn (s : State) : State := { s with ioseq := { s.ioseq with busy := false, pos := .idle } }

/-! ## Records a claim takes as premises -/

/-- No model fault, no glitch, no fatal error, no overflow (60_exceptions.md R280). -/
def cleanRecord (s : State) : Prop :=
  s.mfault = false ∧ s.glitch = false ∧ s.halted = false ∧ s.mod.ovf = false

/-! ## Ends of a run -/

/-- The end states of R332. -/
inductive EndState where
  | encodeDone
  | streamDone
  | idle
  | halted
  | faulted
  | stuck
  deriving DecidableEq, Repr

/-- "encode done" (R332), apart from MFAULT. -/
def encodeEnd (s : State) : Prop :=
  s.mod.phase = .ended ∧ s.mod.busy = false ∧ s.mod.mq = [] ∧ s.ioseq.busy = false ∧ s.halted = false

/-- "stream done" (R332), apart from MFAULT. -/
def streamEnd (s : State) : Prop :=
  s.str.state = .stopped ∧ s.ioseq.busy = false ∧ s.mod.busy = false ∧ s.halted = false

/-- The conditions of R332's table. A state with MFAULT set is no final one (60_exceptions.md R280), so the four
final rows take `MFAULT = 0`; `idle` is what neither of the two rows above it takes ("in any other phase"; DEDUCED,
log entry 23). `stuck` takes the refill wait with the drain off and the MOD hold; "OUT_READY stuck at 0" is taken as
OUT_READY = 0 in this one state, whatever it does later (DESIGN CHOICE, log entry 23). -/
def EndState.holds (e : EndState) (s : State) : Prop :=
  match e with
  | .encodeDone => encodeEnd s ∧ s.mfault = false
  | .streamDone => streamEnd s ∧ s.mfault = false
  | .idle =>
    (s.mod.busy = false ∧ s.ioseq.busy = false ∧ s.halted = false) ∧ ¬ encodeEnd s ∧ ¬ streamEnd s ∧
      s.mfault = false
  | .halted => s.halted = true ∧ s.mfault = false
  | .faulted => s.mfault = true
  | .stuck =>
    (s.ioseq.pos = .l1 ∧ s.str.refillReq = false ∧ drainEnabled s = false) ∨
      (s.mod.busy = true ∧ s.halted = false ∧ s.mod.held = true)

/-- Whether R332 counts an end state as final. -/
def EndState.final : EndState → Bool
  | .encodeDone => true
  | .streamDone => true
  | .idle => true
  | .halted => true
  | .faulted => false
  | .stuck => false

/-- No agent has a step (R332). RST_N is not read: a state in reset counts by the agents' own conditions, as if RST_N
were 1 (DESIGN CHOICE, log entry 23). -/
def noAgentSteps (s : State) : Prop :=
  modEnabled s = false ∧ ioEnabled s = false ∧ drainEnabled s = false

/-- The run is at its end: no agent has a step and HOST issues no further access (R332). -/
def Hosted.ended (h : Hosted) : Prop := noAgentSteps h.machine ∧ h.run.over = true

/-- The run is at its end in this row of R332's table. -/
def Hosted.endsIn (h : Hosted) (e : EndState) : Prop := h.ended ∧ e.holds h.machine

/-- The registers a run's end may be judged by (20_memory.md R81), in the order of the map; CMD cannot be read. -/
def registerOffsets : List Offset :=
  [0x004, 0x008, 0x00C, 0x010, 0x014, 0x018, 0x01C, 0x020, 0x024, 0x028, 0x02C, 0x030, 0x034]

/-- What can be observed at the end of a run (R332). -/
structure Observables where
  registers : List Word
  popped : List Byte
  emitted : List Byte
  history : List Exchange
  bufs : Memory
  deriving DecidableEq, Repr

/-- The observables of a state. Each register shows what a read of it would return. -/
def observe (s : State) : Observables :=
  { registers := registerOffsets.map (fun off => (busRead off 4 s).1), popped := s.env.popped,
    emitted := s.env.emitted, history := s.history, bufs := s.bufs }

/-! ## Runs -/

/-- An infinite run: each state is the step of the one before. -/
def isRun (f : Nat → State) : Prop := ∀ n, step (f n) = .next (f (n + 1))

/-- An agent enabled from some point on, with RST_N high, takes a turn again and again. -/
def fairFor (enabled : State → Bool) (t : Turn) (f : Nat → State) : Prop :=
  (∃ n, ∀ m, n ≤ m → enabled (f m) = true ∧ (f m).env.rstN = true) → ∀ n, ∃ m, n ≤ m ∧ (f m).nextTurn = t

/-- Weak fairness (R331): MOD, IOSEQ and DRAIN get it, HOST does not. -/
def weaklyFair (f : Nat → State) : Prop :=
  fairFor modEnabled .mod f ∧ fairFor ioEnabled .ioseq f ∧ fairFor drainEnabled .drain f

/-- The turn is a step of an agent, and not one that passes (00_scope.md R6). -/
def takesStep (s : State) : Prop :=
  s.env.rstN = true ∧
    ((s.nextTurn = .mod ∧ modEnabled s = true) ∨ (s.nextTurn = .ioseq ∧ ioEnabled s = true) ∨
      (s.nextTurn = .drain ∧ drainEnabled s = true) ∨ ∃ a, s.nextTurn = .host a)

/-- A hang (R332): steps never end, the run is weakly fair, and MOD or IOSEQ stays busy for ever. -/
def isHang (f : Nat → State) : Prop :=
  isRun f ∧ weaklyFair f ∧ (∀ n, ∃ m, n ≤ m ∧ takesStep (f m)) ∧
    ∃ n, (∀ m, n ≤ m → (f m).mod.busy = true) ∨ (∀ m, n ≤ m → (f m).ioseq.busy = true)

/-- `n` turns of MOD. -/
def modTurns : Nat → State → State
  | 0, s => s
  | n + 1, s => modTurns n (modAgent s)

/-- `n` turns of IOSEQ. -/
def ioTurns : Nat → State → State
  | 0, s => s
  | n + 1, s => ioTurns n (ioAgent s)

/-- `n` turns of DRAIN. -/
def drainTurns : Nat → State → State
  | 0, s => s
  | n + 1, s => drainTurns n (drainAgent s)

end Sys2Proof.Machine
end

