-- ==== Sys2Proof/Certificates/Slice0/Obligations.lean ====
section
/-! DEFINITION. The statements for the provers. Each cites the rule of spec/ it formalises. -/

open Sys2Proof Sys2Proof.Machine

/-! ## Encoding -/

/-- 95_test_vectors.md section 4 (rules R113 to R115): words written out from the spec's encodings, every command
among them, and words it calls ILLEGAL. -/
def Obligations.SpecWordsDecode : Prop :=
  decode 0x00040010 = .ok (.modInit 4 false) ∧ decode 0x00010110 = .ok (.modInit 1 true) ∧
  decode 0x00000011 = .ok .modPrime ∧ decode 0xC0000012 = .ok (.modSample (-16384)) ∧
  decode 0x80000012 = .ok (.modSample (-32768)) ∧ decode 0x7FFF0113 = .ok (.modStep 32767 true) ∧
  decode 0x00000014 = .ok .modEnd ∧ decode 0x00000120 = .ok (.xptCs true) ∧
  decode 0x0000FF21 = .ok (.xptXfer 0xFF) ∧ decode 0x00000030 = .ok .bscInit ∧
  decode 0x00000131 = .ok (.bscRead 1) ∧ decode 0x00000032 = .ok (.bscWrite 0) ∧
  decode 0x00000040 = .ok .strCfg ∧ decode 0x00000041 = .ok .strStart ∧
  decode 0x00000000 = .error (.unassignedOpcode 0x00) ∧ decode 0x00000210 = .error (.reservedBits "MOD_INIT") ∧
  decode 0x00010011 = .error (.reservedBits "MOD_PRIME") ∧
  decode 0x00000112 = .error (.reservedBits "MOD_SAMPLE") ∧
  decode 0x00000220 = .error (.reservedBits "XPT_CS") ∧ decode 0x00010021 = .error (.reservedBits "XPT_XFER") ∧
  decode 0x00000042 = .error (.unassignedOpcode 0x42) ∧ decode 0x00000015 = .error (.unassignedOpcode 0x15)

/-- R111, R117: decoding the word of a well-formed instruction gives it back, with every operand at every value. -/
def Obligations.DecodeOfEncode : Prop := ∀ i : Instr, i.wf = true → decode (encode i) = .ok i

/-- R113, R115: a word that decodes is the word of the instruction it decodes to, and that instruction is
well-formed: no bit of a word is dropped. -/
def Obligations.EncodeOfDecode : Prop :=
  ∀ (w : Word) (i : Instr), decode w = .ok i → encode i = w ∧ i.wf = true

/-- R113: a word is the command of a row exactly when `(w AND mask) = match`, and at most one row matches. -/
def Obligations.DecodeFollowsOpcodeMap : Prop :=
  (∀ (w : Word) (row : OpRow), row ∈ opRows →
    (w &&& row.mask = row.pattern ↔ ∃ i, decode w = .ok i ∧ i.mnemonic = row.mnemonic ∧ i.unit = row.unit)) ∧
  (∀ (w : Word) (r1 r2 : OpRow), r1 ∈ opRows → r2 ∈ opRows → w &&& r1.mask = r1.pattern →
    w &&& r2.mask = r2.pattern → r1 = r2)

/-- R115: a word is ILLEGAL exactly when its OP is none of the twelve, or a bit its row fixes to 0 is 1; it has no
effect but `ERR <- 1`; the word 0 is ILLEGAL. (A halted block answers 5 first, R114: see `ChecksInOrder`.) -/
def Obligations.IllegalWordsOnlySetErr : Prop :=
  (∀ w : Word, (∃ e, decode w = .error e) ↔
    (wordOp w ∉ ([0x10, 0x11, 0x12, 0x13, 0x14, 0x20, 0x21, 0x30, 0x31, 0x32, 0x40, 0x41] : List Byte) ∨
      ∃ row ∈ opRows, wordOp row.pattern = wordOp w ∧ w &&& row.mask ≠ row.pattern)) ∧
  (∀ (w : Word) (s : State) (e : DecodeError), s.halted = false → decode w = .error e →
    busWrite 0x000 4 w s = .next { s with err := .illegal }) ∧
  (∃ e, decode 0 = .error e)

/-! ## Steps -/

/-- A step runs the decoded instruction: a HOST write of its word to CMD is `exec` of it on the state with the
turn taken (30_encoding.md R114; 00_scope.md R6). That `withFetchWord` places exactly such a write is the model's
choice (log entry 9). -/
def Obligations.StepRunsDecodedCommand : Prop :=
  ∀ (s : State) (w : Word) (i : Instr), decode w = .ok i →
    (s.nextTurn = .host (.write 0x000 4 w) → s.env.rstN = true → step s = exec i s.takeTurn) ∧
    step (s.withFetchWord 32 w.toNat) =
      exec i { s with env := { s.env with rstN := true, tick := s.env.tick + 1, outValid := false } }

/-- 00_scope.md R6, 70_reset_and_hazards.md R320: each turn is one step of its agent, or one event at a pin; while
RST_N = 0 no agent steps. A change of OUT_READY, and the fall of RST_N, sets that level and nothing else (the rise is
`ResetEvent`). That a turn comes from the decided list or else from the environment, and that a turn without a step
passes, is the model's choice (log entry 1), and so is that OUT_READY changes while RST_N = 0 too (log entry 5) and
that only the rise of RST_N is the reset event (log entry 15). -/
def Obligations.TurnsAreAgentSteps : Prop :=
  ∀ s : State,
    (s.env.rstN = true →
      (s.nextTurn = .mod → step s = .next (modAgent s.takeTurn)) ∧
      (s.nextTurn = .ioseq → step s = .next (ioAgent s.takeTurn)) ∧
      (s.nextTurn = .drain → step s = .next (drainAgent s.takeTurn)) ∧
      (∀ off bytes, s.nextTurn = .host (.read off bytes) →
        step s = .next { (busRead off bytes s.takeTurn).2 with
          env := { (busRead off bytes s.takeTurn).2.env with rdata := (busRead off bytes s.takeTurn).1 } }) ∧
      (∀ off bytes v, s.nextTurn = .host (.write off bytes v) → step s = busWrite off bytes v s.takeTurn)) ∧
    (s.env.rstN = false →
      (s.nextTurn = .mod ∨ s.nextTurn = .ioseq ∨ s.nextTurn = .drain ∨ ∃ a, s.nextTurn = .host a) →
      step s = .next s.takeTurn) ∧
    (∀ level, s.nextTurn = .outReady level →
      step s = .next { s.takeTurn with env := { s.takeTurn.env with outReady := level } }) ∧
    (s.nextTurn = .rstN false → step s = .next { s.takeTurn with env := { s.takeTurn.env with rstN := false } }) ∧
    (s.nextTurn = .rstN true → s.env.rstN = true → step s = .next s.takeTurn) ∧
    (s.env.turns = [] → s.nextTurn = Config.environment s.env.tick) ∧
    (∀ t ts, s.env.turns = t :: ts → s.nextTurn = t)

/-- 30_encoding.md R114: every command answers a next state, and a refused one changes nothing but ERR. -/
def Obligations.RefusedCommandWritesOnlyErr : Prop :=
  ∀ (i : Instr) (s : State), ∃ t, exec i s = .next t ∧ (t.err ≠ .ok → t = { s with err := t.err })

/-- 60_exceptions.md R282 with 30_encoding.md R114: HALTED before ILLEGAL before BUSY before STOPPED before the
state precondition before the argument check. -/
def Obligations.ChecksInOrder : Prop :=
  ∀ s : State,
    (s.halted = true → ∀ w, busWrite 0x000 4 w s = .next { s with err := .halted }) ∧
    (s.halted = false → ∀ w e, decode w = .error e → busWrite 0x000 4 w s = .next { s with err := .illegal }) ∧
    (s.halted = false → ∀ i : Instr, i.unit = .mod → s.mod.busy = true →
      exec i s = .next { s with err := .busy }) ∧
    (s.halted = false → ∀ i : Instr, i.unit = .io → s.ioseq.busy = true →
      exec i s = .next { s with err := .busy }) ∧
    (s.halted = false → s.ioseq.busy = false → s.str.state = .stopped → ∀ i : Instr, i.unit = .io →
      exec i s = .next { s with err := .state }) ∧
    (s.halted = false → s.ioseq.busy = false → s.session ≠ .ready →
      exec .strStart s = .next { s with err := .state })

/-! ## MOD commands -/

/-- 40_modulator.md R141: MOD_INIT configures and clears, and changes nothing else. -/
def Obligations.ModInitConfigures : Prop :=
  ∀ (r : Nat) (ssel : Bool) (s : State), 1 ≤ r → r ≤ 65535 → s.halted = false → s.mod.busy = false →
    exec (.modInit r ssel) s = .next
      { s with
        err := .ok
        mod :=
          { a := 0, b := 0, r := BitVec.ofNat 16 r, ssel := ssel, phase := .configured, pack := 0, nbits := 0,
            mq := [], busy := false, kind := .none, remain := 0, curS := 0, curE := false, ovf := false } } ∧
    (BitVec.ofNat 16 r).toNat = r

/-- R142, R143, R144: MOD_PRIME, MOD_SAMPLE and MOD_STEP start S·R, 2R and 1 internal steps (the counts fit
MOD_REMAIN), and change nothing else. -/
def Obligations.ModCommandsStart : Prop :=
  ∀ (s : State) (smp : Int) (e : Bool), s.halted = false → s.mod.busy = false →
    (s.mod.phase = .configured → ∃ n : Word, n.toNat = (if s.mod.ssel then 16000 else 8000) * s.mod.r.toNat ∧
      exec .modPrime s = .next
        { s with
          err := .ok, mod := { s.mod with busy := true, kind := .prime, remain := n, curS := 0, curE := false } }) ∧
    (-32768 ≤ smp → smp ≤ 32767 → s.mod.phase = .primed → ∃ (n : Word) (c : BitVec 16),
      n.toNat = 2 * s.mod.r.toNat ∧ c.toInt = smp ∧
      exec (.modSample smp) s = .next
        { s with
          err := .ok, mod := { s.mod with busy := true, kind := .sample, remain := n, curS := c, curE := true } }) ∧
    (-32768 ≤ smp → smp ≤ 32767 → (s.mod.phase = .configured ∨ s.mod.phase = .primed) → ∃ c : BitVec 16,
      c.toInt = smp ∧
      exec (.modStep smp e) s = .next
        { s with
          err := .ok, mod := { s.mod with busy := true, kind := .step, remain := 1, curS := c, curE := e } })

/-- R145: MOD_END discards the partial byte and ends the stream; MQ keeps every byte. -/
def Obligations.ModEndDiscardsPartialByte : Prop :=
  ∀ s : State, s.halted = false → s.mod.busy = false → (s.mod.phase = .configured ∨ s.mod.phase = .primed) →
    exec .modEnd s = .next
      { s with err := .ok, mod := { s.mod with pack := 0, nbits := 0, phase := .ended } }

/-- R141 to R145, 60_exceptions.md R281, 95_test_vectors.md M12: when MOD commands are refused, and with what. -/
def Obligations.ModCommandRefusals : Prop :=
  ∀ s : State, s.halted = false →
    (∀ i : Instr, i.unit = .mod → s.mod.busy = true → exec i s = .next { s with err := .busy }) ∧
    (s.mod.busy = false →
      (∀ ssel, exec (.modInit 0 ssel) s = .next { s with err := .arg }) ∧
      (s.mod.phase ≠ .configured → exec .modPrime s = .next { s with err := .state }) ∧
      (∀ smp, s.mod.phase ≠ .primed → exec (.modSample smp) s = .next { s with err := .state }) ∧
      (∀ smp e, s.mod.phase = .unconfig ∨ s.mod.phase = .ended →
        exec (.modStep smp e) s = .next { s with err := .state }) ∧
      (s.mod.phase = .unconfig ∨ s.mod.phase = .ended → exec .modEnd s = .next { s with err := .state }))

/-! ## IO commands -/

/-- 41_transport.md R190, R191: XPT_CS sets the level in the accepting step; XPT_XFER starts one exchange. -/
def Obligations.XptCommandsAccepted : Prop :=
  ∀ s : State, s.halted = false → s.ioseq.busy = false → s.str.state ≠ .stopped →
    (∀ c : Bool, exec (.xptCs c) s = .next
      { s with
        err := .ok, xpt := { s.xpt with csN := c }
        env := { s.env with transcript := s.env.transcript ++ [.cs c] } }) ∧
    (∀ t : Byte, ∃ v : Word, v.toNat = t.toNat ∧ exec (.xptXfer t) s = .next
      { s with err := .ok, ioseq := { s.ioseq with busy := true, arg := v, pos := .xpt1 } })

/-- 42_storage.md R214: BSC_INIT passes through `Uninitialized` and starts INIT at I1. -/
def Obligations.BscInitStarts : Prop :=
  ∀ s : State, s.halted = false → s.ioseq.busy = false → s.str.state ≠ .stopped → s.session ≠ .ready →
    exec .bscInit s = .next
      { s with
        err := .ok, session := .uninitialized, ioseq := { s.ioseq with busy := true, pos := .i1cs } }

/-- 42_storage.md R226, R227: BSC_READ and BSC_WRITE latch ARG and the buffer index and start their procedure. -/
def Obligations.BscReadWriteStart : Prop :=
  ∀ (s : State) (d : BufIdx), s.halted = false → s.ioseq.busy = false → s.str.state ≠ .stopped →
    s.session = .ready →
    exec (.bscRead d) s = .next
      { s with
        err := .ok, ioseq := { s.ioseq with busy := true, arg := s.arg, d := d, pos := .rd1 .host } } ∧
    exec (.bscWrite d) s = .next
      { s with err := .ok, ioseq := { s.ioseq with busy := true, arg := s.arg, d := d, pos := .w1 } }

/-- 43_streaming.md R250: STR_CFG sets MAX in the accepting step. -/
def Obligations.StrCfgSetsMax : Prop :=
  ∀ s : State, s.halted = false → s.ioseq.busy = false → s.str.state = .idle →
    exec .strCfg s = .next { s with err := .ok, str := { s.str with max := s.arg } }

/-- 43_streaming.md R251: STR_START clears the streaming registers and starts priming at P1. -/
def Obligations.StrStartPrimes : Prop :=
  ∀ s : State, s.halted = false → s.ioseq.busy = false → s.str.state = .idle → s.session = .ready →
    3 ≤ s.str.max.toNat →
    exec .strStart s = .next
      { s with
        err := .ok
        str :=
          { state := .priming, role := 0, cursor := 0, refillReq := false, next := 0, max := s.str.max,
            irqEn := false }
        ioseq := { s.ioseq with busy := true, pos := .rd1 .prime0 } }

/-- R190, R191, R214, R226, R227, R250, R251, 95_test_vectors.md T5: when IO commands are refused, and with what. -/
def Obligations.IoCommandRefusals : Prop :=
  ∀ s : State, s.halted = false →
    (∀ i : Instr, i.unit = .io → s.ioseq.busy = true → exec i s = .next { s with err := .busy }) ∧
    (s.ioseq.busy = false →
      (∀ i : Instr, i.unit = .io → s.str.state = .stopped → exec i s = .next { s with err := .state }) ∧
      (s.session = .ready → exec .bscInit s = .next { s with err := .state }) ∧
      (∀ d, s.session ≠ .ready →
        exec (.bscRead d) s = .next { s with err := .state } ∧
        exec (.bscWrite d) s = .next { s with err := .state }) ∧
      (s.str.state ≠ .idle →
        exec .strCfg s = .next { s with err := .state } ∧ exec .strStart s = .next { s with err := .state }) ∧
      (s.session ≠ .ready → exec .strStart s = .next { s with err := .state }) ∧
      (s.session = .ready → s.str.state = .idle → s.str.max.toNat < 3 →
        exec .strStart s = .next { s with err := .arg }))

/-! ## The modulator -/

/-- 40_modulator.md R146 to R148, 00_scope.md R9: for each polarity of R147's table, the accumulators after a step
are the exact sums of R146 wherever these fit in `int32`, agree with the sums of R146 modulo 2^32 always, and the
step overflows exactly when a sum does not fit. The bit is 1 exactly when the level is positive. -/
def Obligations.AccumulatorStep : Prop :=
  ∀ (pol : Polarity) (lGt lLe σ : Int) (a b : Word) (smp : Int),
    (pol, lGt, lLe, σ) ∈
      [(Polarity.literal, (-32768 : Int), (32767 : Int), (1 : Int)), (.nonInv, 32767, -32768, 1),
        (.invFb, -32768, 32767, -1)] →
    ∃ (bs : Word) (level : Int),
      (bs.toInt - (b.toInt + a.toInt)) % 4294967296 = 0 ∧
      level = (if 0 < bs.toInt then lGt else lLe) ∧
      ((accStep pol a b smp).a.toInt - (a.toInt + (smp - σ * level))) % 4294967296 = 0 ∧
      ((accStep pol a b smp).b.toInt - (bs.toInt - σ * level)) % 4294967296 = 0 ∧
      ((accStep pol a b smp).bit = true ↔ 0 < level) ∧
      ((accStep pol a b smp).overflow = false ↔
        (-2147483648 ≤ b.toInt + a.toInt ∧ b.toInt + a.toInt ≤ 2147483647) ∧
        (-2147483648 ≤ a.toInt + (smp - σ * level) ∧ a.toInt + (smp - σ * level) ≤ 2147483647) ∧
        (-2147483648 ≤ bs.toInt - σ * level ∧ bs.toInt - σ * level ≤ 2147483647)) ∧
      ((accStep pol a b smp).overflow = false →
        bs.toInt = b.toInt + a.toInt ∧ (accStep pol a b smp).a.toInt = a.toInt + (smp - σ * level) ∧
        (accStep pol a b smp).b.toInt = bs.toInt - σ * level)

/-- R149: PACKBIT shifts the bit in at bit 0; the eighth bit pushes the byte at the tail of MQ and NBITS returns to
0 while PACK keeps it; so the first of eight bits ends in bit 7. The example: 0,1,1,0,1,0,0,1 push 0x69. MOD_END
discards a partial byte. -/
def Obligations.PackerIsMsbFirst : Prop :=
  (∀ (m : Mod) (bit : Bool), ∃ p : Byte,
    p.getLsbD 0 = bit ∧ (∀ k, k < 7 → p.getLsbD (k + 1) = m.pack.getLsbD k) ∧
    (m.nbits ≠ 7 → m.packBit bit = { m with pack := p, nbits := m.nbits + 1 }) ∧
    (m.nbits = 7 → m.packBit bit = { m with pack := p, nbits := 0, mq := m.mq ++ [p] })) ∧
  (∀ (m : Mod) (b7 b6 b5 b4 b3 b2 b1 b0 : Bool), m.nbits = 0 → ∃ p : Byte,
    [b0, b1, b2, b3, b4, b5, b6, b7] = (List.range 8).map p.getLsbD ∧
    ([b7, b6, b5, b4, b3, b2, b1, b0].foldl Mod.packBit m) =
      { m with pack := p, nbits := 0, mq := m.mq ++ [p] }) ∧
  (∀ m : Mod, m.nbits = 0 → m.mq = [] →
    ([false, true, true, false, true, false, false, true].foldl Mod.packBit m).mq = [0x69]) ∧
  (∀ s : State, s.halted = false → s.mod.busy = false → (s.mod.phase = .configured ∨ s.mod.phase = .primed) →
    ∃ t, exec .modEnd s = .next t ∧ t.mod.nbits = 0 ∧ t.mod.pack = 0 ∧ t.mod.mq = s.mod.mq)

/-- R151, R150: a turn of MOD runs one internal step when MOD is busy, not halted and not held; the command ends
when no step remains; otherwise the turn does nothing, which is the model's choice of a turn that passes (log entry 1).
The accumulators, OVF and the packer follow R146. MOD is held exactly when e = 1, NBITS = 7 and MQ holds MOD_OUT_DEPTH
bytes (more only in states no run reaches, see `QueueWithinDepthKept`); never where the depth is unbounded. A bounded
depth is `pred + 1` bytes. -/
def Obligations.ModTurnRunsOneStep : Prop :=
  (∀ s : State,
    (¬ (s.mod.busy = true ∧ s.halted = false ∧ s.mod.held = false) → modAgent s = s) ∧
    (s.mod.busy = true → s.halted = false → s.mod.held = false →
      ∃ m : Mod, modAgent s = { s with mod := m } ∧
        m.a = (accStep Config.modPolarity s.mod.a s.mod.b s.mod.curS.toInt).a ∧
        m.b = (accStep Config.modPolarity s.mod.a s.mod.b s.mod.curS.toInt).b ∧
        m.ovf = (s.mod.ovf || (accStep Config.modPolarity s.mod.a s.mod.b s.mod.curS.toInt).overflow) ∧
        (s.mod.curE = false → m.pack = s.mod.pack ∧ m.nbits = s.mod.nbits ∧ m.mq = s.mod.mq) ∧
        (s.mod.curE = true → ∃ q : Mod,
          q = s.mod.packBit (accStep Config.modPolarity s.mod.a s.mod.b s.mod.curS.toInt).bit ∧
          m.pack = q.pack ∧ m.nbits = q.nbits ∧ m.mq = q.mq) ∧
        m.remain = s.mod.remain - 1 ∧ m.r = s.mod.r ∧ m.ssel = s.mod.ssel ∧ m.curS = s.mod.curS ∧
        m.curE = s.mod.curE ∧
        (m.remain = 0 → m.busy = false ∧ m.kind = .none ∧
          m.phase = (if s.mod.kind = .prime then .primed else s.mod.phase)) ∧
        (m.remain ≠ 0 → m.busy = true ∧ m.kind = s.mod.kind ∧ m.phase = s.mod.phase))) ∧
  (∀ m : Mod, m.held = true ↔ m.curE = true ∧ m.nbits = 7 ∧ queueFull Config.modOutDepth m.mq = true) ∧
  (∀ q : List Byte,
    queueFull .unbounded q = false ∧ ∀ pred, (queueFull (.bounded pred) q = true ↔ pred + 1 ≤ q.length))

/-- R142, R151, R164: a MOD_PRIME with n steps to run is busy for n turns of MOD, then the phase is PRIMED; nothing
was emitted, and nothing outside MOD has changed. -/
def Obligations.PrimeCompletesSilently : Prop :=
  ∀ s : State, s.halted = false → s.mod.busy = true → s.mod.kind = .prime → s.mod.curE = false →
    s.mod.remain ≠ 0 →
    (∀ k, k < s.mod.remain.toNat → (modTurns k s).mod.busy = true) ∧
    ∃ m : Mod, modTurns s.mod.remain.toNat s = { s with mod := m } ∧ m.phase = .primed ∧ m.busy = false ∧
      m.kind = .none ∧ m.remain = 0 ∧ m.pack = s.mod.pack ∧ m.nbits = s.mod.nbits ∧ m.mq = s.mod.mq

/-- R143, R149, R154: an emitting command with n steps to run pushes floor((NBITS + n) / 8) bytes and leaves
(NBITS + n) mod 8 bits, where no push meets a full queue. -/
def Obligations.EmittingCommandCountsBits : Prop :=
  ∀ s : State, s.halted = false → s.mod.busy = true → s.mod.curE = true → s.mod.remain ≠ 0 →
    (∀ q : List Byte, q.length < s.mod.mq.length + (s.mod.nbits.val + s.mod.remain.toNat) / 8 →
      queueFull Config.modOutDepth q = false) →
    ∃ (m : Mod) (pushed : List Byte), modTurns s.mod.remain.toNat s = { s with mod := m } ∧ m.busy = false ∧
      m.mq = s.mod.mq ++ pushed ∧ pushed.length = (s.mod.nbits.val + s.mod.remain.toNat) / 8 ∧
      m.nbits.val = (s.mod.nbits.val + s.mod.remain.toNat) % 8

/-- 10_state.md R32: only the modulator step writes A and B, plus MOD_INIT and reset, which clear both. -/
def Obligations.AccumulatorWriters : Prop :=
  ∀ s t : State, step s = .next t →
    (t.mod.a = s.mod.a ∧ t.mod.b = s.mod.b) ∨
    (s.nextTurn = .mod ∧ s.mod.busy = true ∧ s.halted = false ∧
      t.mod.a = (accStep Config.modPolarity s.mod.a s.mod.b s.mod.curS.toInt).a ∧
      t.mod.b = (accStep Config.modPolarity s.mod.a s.mod.b s.mod.curS.toInt).b) ∨
    (t.mod.a = 0 ∧ t.mod.b = 0 ∧
      ((∃ w r ssel, s.nextTurn = .host (.write 0x000 4 w) ∧ decode w = .ok (.modInit r ssel)) ∨
        s.nextTurn = .rstN true))

/-- 10_state.md R38: OVF is set when an accumulator update does not fit; only MOD_INIT and reset clear it; it is 0
at reset. -/
def Obligations.OvfIsSticky : Prop :=
  (∀ s t : State, step s = .next t → s.mod.ovf = true → t.mod.ovf = false →
    (∃ w r ssel, s.nextTurn = .host (.write 0x000 4 w) ∧ decode w = .ok (.modInit r ssel) ∧ t.err = .ok) ∨
      (s.nextTurn = .rstN true ∧ s.env.rstN = false)) ∧
  (∀ s t : State, step s = .next t → s.mod.ovf = false → t.mod.ovf = true →
    s.nextTurn = .mod ∧
      (accStep Config.modPolarity s.mod.a s.mod.b s.mod.curS.toInt).overflow = true) ∧
  (∀ s : State, s.mod.busy = true → s.halted = false → s.mod.held = false →
    (accStep Config.modPolarity s.mod.a s.mod.b s.mod.curS.toInt).overflow = true →
    (modAgent s).mod.ovf = true) ∧
  State.reset.mod.ovf = false

/-- R152: a read of MODOUT returns the head of MQ with VALID and pops it in the same HOST step; with MQ empty it
returns 0 and changes nothing (but the record of what HOST read). -/
def Obligations.ModoutReadPops : Prop :=
  ∀ s : State, s.nextTurn = .host (.read 0x01C 4) → s.env.rstN = true →
    (∀ b q, s.mod.mq = b :: q → ∃ v : Word, v.toNat = 256 + b.toNat ∧ step s = .next
      { s.takeTurn with
        mod := { s.mod with mq := q }
        env := { s.takeTurn.env with rdata := v, popped := s.env.popped ++ [b] } }) ∧
    (s.mod.mq = [] → step s = .next { s.takeTurn with env := { s.takeTurn.env with rdata := 0 } })

/-- 10_state.md R34: the transitions of MOD_PHASE, and no other. -/
def Obligations.ModPhaseTransitions : Prop :=
  ∀ s t : State, modKindFitsPhase s → step s = .next t →
    t.mod.phase = s.mod.phase ∨
    (t.mod.phase = .configured ∧
      ∃ w r ssel, s.nextTurn = .host (.write 0x000 4 w) ∧ decode w = .ok (.modInit r ssel)) ∨
    (s.mod.phase = .configured ∧ t.mod.phase = .primed ∧ s.nextTurn = .mod ∧ s.mod.kind = .prime ∧
      t.mod.busy = false) ∨
    ((s.mod.phase = .configured ∨ s.mod.phase = .primed) ∧ t.mod.phase = .ended ∧
      s.nextTurn = .host (.write 0x000 4 0x00000014)) ∨
    (t.mod.phase = .unconfig ∧ s.nextTurn = .rstN true ∧ s.env.rstN = false)

/-! ## Transport -/

/-- 41_transport.md R193, R192, R196: the eight bit cycles, MSB first, with the bits of the card's byte on MISO,
give the byte-level exchange: RXDATA holds the card's byte and the lines rest. That XPT_TX and XPT_RX keep the
exchange's two bytes is the model's choice (log entry 7). -/
def Obligations.BitCyclesGiveExchange : Prop :=
  ∀ (tx rx : Byte) (x : Xpt),
    x.shiftByte tx rx =
      { csN := x.csN, sck := false, mosi := true, rxdata := rx, bit := 0, tx := tx, rx := rx }

/-- 41_transport.md R191, R192, R194, R196, 42_storage.md R210 to R213, R216, R218, R222, R223, R225: every line that
exchanges one byte or sets the select does so and nothing else, but that RD4 stores the byte in its cell and W4 reads
the one it sends (`readCell`, 20_memory.md R88); XPT_XFER ends with the byte in RXDATA; the polls stay at their line
until their byte comes; where SEND_CMD, CMD_END and READ_SECTOR return to (R217, R219, R220, 43_streaming.md R252,
R254); BSC_READ and BSC_WRITE end (R226, R227). At idle IOSEQ has no step (10_state.md R42, 20_memory.md R90); that
its turn passes is the model's choice (log entry 1). The byte received is CARD's answer to the history, the level of
CS_N and the byte sent (R192, R195, R198), or the next one already decided (log entry 2). That a poll tests its byte in the turn of its exchange, that IO_POS keeps the status, and which
return takes a turn, is the model's reading (log entry 8); what XPT_TX, XPT_RX and the list of CARD's decided answers
keep is the model's choice (log entries 7, 2). -/
def Obligations.ExchangeLines : Prop :=
  (∀ s : State, s.halted = false →
    (s.ioseq.pos = .xpt1 → ioAgent s = afterReturn (afterExchange (s.ioseq.arg.extractLsb' 0 8) .idle s)) ∧
    (s.ioseq.pos = .i1cs → ioAgent s = afterSelect true (.i1clk 0) s) ∧
    (∀ n, s.ioseq.pos = .i1clk n →
      ioAgent s = afterExchange 0xFF (if n + 1 < 100 then .i1clk (n + 1) else .send (.cmd0 1) .s1) s) ∧
    (∀ k, s.ioseq.pos = .send k .s1 → ioAgent s = afterSelect false (.send k .s2) s) ∧
    (∀ k, s.ioseq.pos = .send k .s2 → ioAgent s = afterExchange (0x40 ||| siteIndex k) (.send k .s3) s) ∧
    (∀ k, s.ioseq.pos = .send k .s3 →
      ioAgent s = afterExchange ((siteArg k s).extractLsb' 24 8) (.send k .s4) s) ∧
    (∀ k, s.ioseq.pos = .send k .s4 →
      ioAgent s = afterExchange ((siteArg k s).extractLsb' 16 8) (.send k .s5) s) ∧
    (∀ k, s.ioseq.pos = .send k .s5 →
      ioAgent s = afterExchange ((siteArg k s).extractLsb' 8 8) (.send k .s6) s) ∧
    (∀ k, s.ioseq.pos = .send k .s6 →
      ioAgent s = afterExchange ((siteArg k s).extractLsb' 0 8) (.send k .s7) s) ∧
    (∀ k, s.ioseq.pos = .send k .s7 → ioAgent s = afterExchange (siteCrc k) (.send k .s8) s) ∧
    (∀ k, s.ioseq.pos = .send k .s8 → ioAgent s =
      afterExchange 0xFF
        (if (cardAnswer 0xFF s).getLsbD 7 then .send k .s8 else afterSend k (cardAnswer 0xFF s)) s) ∧
    (∀ n, s.ioseq.pos = .i3trail n →
      ioAgent s = afterExchange 0xFF (if n + 1 < 4 then .i3trail (n + 1) else .close .cmd8 .e1) s) ∧
    (∀ k, s.ioseq.pos = .close k .e1 → ioAgent s = afterSelect true (.close k .e2) s) ∧
    (∀ k, s.ioseq.pos = .close k .e2 → ioAgent s = afterExchange 0xFF (afterClose k) s) ∧
    (∀ c, s.ioseq.pos = .rd1 c → ioAgent s = afterExchange 0xFF (.send (.cmd17 c) .s1) s) ∧
    (∀ c, s.ioseq.pos = .rd3 c →
      ioAgent s = afterExchange 0xFF (if cardAnswer 0xFF s = 0xFE then .rd4 c 0 else .rd3 c) s) ∧
    (∀ c i, s.ioseq.pos = .rd4 c i → ioAgent s =
      { afterExchange 0xFF (if i = 511 then .rd5 c false else .rd4 c (i + 1)) s with
        bufs := Memory.write s.bufs (cellAddr (readBuf c s) i) (cardAnswer 0xFF s) }) ∧
    (∀ c, s.ioseq.pos = .rd5 c false → ioAgent s = afterExchange 0xFF (.rd5 c true) s) ∧
    (∀ c, s.ioseq.pos = .rd5 c true → ioAgent s = afterExchange 0xFF (.close (.cmd17 c) .e1) s) ∧
    (s.ioseq.pos = .w1 → ioAgent s = afterExchange 0xFF (.send .cmd24 .s1) s) ∧
    (s.ioseq.pos = .w3 → ioAgent s = afterExchange 0xFE (.w4 0) s) ∧
    (∀ i, s.ioseq.pos = .w4 i → ioAgent s =
      afterExchange (readCell (cellAddr s.ioseq.d i) s).1 (if i = 511 then .w5 else .w4 (i + 1))
        (readCell (cellAddr s.ioseq.d i) s).2) ∧
    (s.ioseq.pos = .w5 → ioAgent s =
      afterExchange 0xFF (if cardAnswer 0xFF s = 0xFF then .w5 else .w6 (cardAnswer 0xFF s)) s) ∧
    (s.ioseq.pos = .w7 → ioAgent s =
      afterExchange 0xFF (if cardAnswer 0xFF s = 0x00 then .w7 else .close .cmd24 .e1) s) ∧
    (s.ioseq.pos = .readReturn → ioAgent s = afterReturn s) ∧
    (s.ioseq.pos = .writeReturn → ioAgent s = afterReturn s)) ∧
  (∀ (n : Nat) (c : ReadFor) (r : Byte),
    afterSend (.cmd0 n) r = .close (.cmd0 n r) .e1 ∧ afterSend .cmd8 r = .test .cmd8 r ∧
    afterSend .cmd55 r = .close (.cmd55 r) .e1 ∧ afterSend .acmd41 r = .close (.acmd41 r) .e1 ∧
    afterSend .cmd16 r = .close (.cmd16 r) .e1 ∧ afterSend (.cmd17 c) r = .test (.cmd17 c) r ∧
    afterSend .cmd24 r = .test .cmd24 r ∧
    afterClose (.cmd0 n r) = .test (.cmd0 n) r ∧ afterClose .cmd8Failed = .initReturn (some .cmd8) ∧
    afterClose .cmd8 = .send .cmd55 .s1 ∧ afterClose (.cmd55 r) = .test .cmd55 r ∧
    afterClose (.acmd41 r) = .test .acmd41 r ∧ afterClose (.cmd16 r) = .test .cmd16 r ∧
    afterClose (.cmd17 c) = afterRead c ∧ afterClose .cmd24 = .writeReturn) ∧
  (∀ s : State, s.ioseq.pos = .idle → ioAgent s = s) ∧
  (∀ (s : State) (tx : Byte),
    (s.env.cardScript = [] → cardAnswer tx s = Config.card s.history s.xpt.csN tx) ∧
    (∀ b bs, s.env.cardScript = b :: bs → cardAnswer tx s = b) ∧
    s.history = s.env.transcript.filterMap (fun e => match e with | .xfer x => some x | .cs _ => none)) ∧
  afterRead .host = .readReturn ∧ afterRead .prime0 = .rd1 .prime1 ∧ afterRead .prime1 = .p3 ∧
  afterRead .refill = .l5

/-! ## Storage -/

/-- 42_storage.md R210, R213, R217 to R223, R230, 30_encoding.md R119: from S1, seven turns of IOSEQ select the card
and send the six bytes of the frame, the argument big-endian; then the status is polled. MOD, the buffers and the
streaming registers are untouched. Each call site sends the index, the argument and the CRC byte of R213, and a
sector address unchanged: IO_ARG for BSC_READ and BSC_WRITE (R226, R227), 0 and 1 for priming and NEXT for a refill
(43_streaming.md R252, R254). -/
def Obligations.SendCmdSendsFrame : Prop :=
  (∀ (s : State) (k : Site), s.halted = false → s.ioseq.pos = .send k .s1 →
    (ioTurns 7 s).ioseq = { s.ioseq with pos := .send k .s8 } ∧ (ioTurns 7 s).xpt.csN = false ∧
    (ioTurns 7 s).mod = s.mod ∧ (ioTurns 7 s).bufs = s.bufs ∧ (ioTurns 7 s).str = s.str ∧
    (∃ xs : List Exchange, (ioTurns 7 s).history = s.history ++ xs ∧ (∀ x ∈ xs, x.csN = false) ∧
      xs.map Exchange.tx =
        [0x40 ||| siteIndex k, (siteArg k s).extractLsb' 24 8, (siteArg k s).extractLsb' 16 8,
          (siteArg k s).extractLsb' 8 8, (siteArg k s).extractLsb' 0 8, siteCrc k])) ∧
  (∀ (s : State) (n : Nat) (c : ReadFor),
    [Site.cmd0 n, .cmd8, .cmd55, .acmd41, .cmd16, .cmd17 c, .cmd24].map siteIndex = [0, 8, 55, 41, 16, 17, 24] ∧
    [Site.cmd0 n, .cmd8, .cmd55, .acmd41, .cmd16, .cmd17 c, .cmd24].map siteCrc =
      [0x95, 0x87, 0xFF, 0xFF, 0xFF, 0xFF, 0xFF] ∧
    siteArg (.cmd0 n) s = 0 ∧ siteArg .cmd8 s = 0x000001AA ∧ siteArg .cmd55 s = 0 ∧
    siteArg .acmd41 s = 0x40000000 ∧ siteArg .cmd16 s = 0x00000200 ∧
    siteArg (.cmd17 .host) s = s.ioseq.arg ∧ siteArg .cmd24 s = s.ioseq.arg ∧
    siteArg (.cmd17 .refill) s = s.str.next ∧ siteArg (.cmd17 .prime0) s = 0 ∧ siteArg (.cmd17 .prime1) s = 1)

/-- 42_storage.md R222 (RD4), R226, 43_streaming.md R252, R254, 20_memory.md R84, R93: from byte i, the rest of a
sector read puts data byte j of the transfer into byte j of the destination buffer, one exchange a byte with the fill
byte, writes no other cell, and goes on with the two CRC bytes. The destination is IO_D for BSC_READ, BUF[0] and
BUF[1] for priming, and TGT for a refill. -/
def Obligations.ReadFillsBuffer : Prop :=
  (∀ (s : State) (c : ReadFor) (i : SectorIdx), s.halted = false → s.ioseq.pos = .rd4 c i →
    ∃ xs : List Exchange,
      (ioTurns (512 - i.val) s).history = s.history ++ xs ∧ xs.length = 512 - i.val ∧
      (∀ x ∈ xs, x.tx = 0xFF) ∧
      (∀ j : SectorIdx, i ≤ j →
        Memory.read (ioTurns (512 - i.val) s).bufs (cellAddr (readBuf c s) j) =
          (xs[j.val - i.val]?).map Exchange.rx) ∧
      (∀ a, (∀ j : SectorIdx, i ≤ j → a ≠ cellAddr (readBuf c s) j) →
        Memory.read (ioTurns (512 - i.val) s).bufs a = Memory.read s.bufs a) ∧
      (ioTurns (512 - i.val) s).ioseq = { s.ioseq with pos := .rd5 c false } ∧
      (ioTurns (512 - i.val) s).mod = s.mod ∧ (ioTurns (512 - i.val) s).str = s.str) ∧
  (∀ s : State, readBuf .host s = s.ioseq.d ∧ readBuf .prime0 s = 0 ∧ readBuf .prime1 s = 1 ∧
    readBuf .refill s = s.ioseq.tgt)

/-- 42_storage.md R223 (W4): from byte i, the rest of a sector write sends the buffer's bytes in order, leaves the
buffers as they are, sets no MFAULT where the cells are written, and goes on with the data-response poll. -/
def Obligations.WriteSendsBuffer : Prop :=
  ∀ (s : State) (i : SectorIdx), s.halted = false → s.ioseq.pos = .w4 i →
    (∀ j : SectorIdx, i ≤ j → ∃ b, Memory.read s.bufs (cellAddr s.ioseq.d j) = some b) →
    ∃ xs : List Exchange,
      (ioTurns (512 - i.val) s).history = s.history ++ xs ∧ xs.length = 512 - i.val ∧
      (∀ j : SectorIdx, i ≤ j →
        (xs[j.val - i.val]?).map Exchange.tx = Memory.read s.bufs (cellAddr s.ioseq.d j)) ∧
      (ioTurns (512 - i.val) s).bufs = s.bufs ∧ (ioTurns (512 - i.val) s).mfault = s.mfault ∧
      (ioTurns (512 - i.val) s).ioseq = { s.ioseq with pos := .w5 } ∧
      (ioTurns (512 - i.val) s).mod = s.mod ∧ (ioTurns (512 - i.val) s).str = s.str

/-- 42_storage.md R224: the outcome of the data response by its low five bits, in the order of the checks, with the
examples of its table. That one turn of IOSEQ, at W6, runs all of DATA_RESPONSE is the model's reading (log
entry 8). -/
def Obligations.DataResponseOutcome : Prop :=
  (∀ (s : State) (t : Byte), s.halted = false → s.ioseq.pos = .w6 t →
    ((t &&& 0x1F).getLsbD 0 = false → ioAgent s = raiseFatal .invalidDataResponse s) ∧
    (t &&& 0x1F = 0x0B → ioAgent s = raiseFatal .crcError s) ∧
    (t &&& 0x1F = 0x0D → ioAgent s = raiseFatal .writeError s) ∧
    ((t &&& 0x1F).getLsbD 0 = true → t &&& 0x1F ≠ 0x0B → t &&& 0x1F ≠ 0x0D → t &&& 0x1F ≠ 0x05 →
      ioAgent s = raiseFatal .unknownError s) ∧
    (t &&& 0x1F = 0x05 → ioAgent s = { s with ioseq := { s.ioseq with pos := .w7 } })) ∧
  [0xE5, 0x05, 0x0B, 0xED, 0x04, 0xFE, 0x00, 0x07, 0x1F].map dataResponse =
    [none, none, some .crcError, some .writeError, some .invalidDataResponse, some .invalidDataResponse,
      some .invalidDataResponse, some .unknownError, some .unknownError]

/-- 60_exceptions.md R286: a fatal error takes effect in the IOSEQ step that detects it, all together: the latch is
set with its reason, DRAIN, IOSEQ and MOD stop, and everything else keeps its value; CS_N is 0. Nothing but such a
step sets HALTED. A rejected CMD17 or CMD24 is such an error (42_storage.md R222, R223); an accepted one goes on. -/
def Obligations.FatalEntry : Prop :=
  (∀ s t : State, step s = .next t → s.halted = false → t.halted = true →
    s.nextTurn = .ioseq ∧
    (∃ c, t =
      { s.takeTurn with
        halted := true, fatalCode := c, str := { s.str with irqEn := false }
        ioseq := { s.ioseq with busy := false, pos := .idle }
        mod := { s.mod with busy := false, kind := .none } } ∧
      ((∃ who r, s.ioseq.pos = .test (.cmd17 who) r ∧ r ≠ 0 ∧ c = .readCmdRejected) ∨
       (∃ r, s.ioseq.pos = .test .cmd24 r ∧ r ≠ 0 ∧ c = .writeCmdRejected) ∨
       (∃ x, s.ioseq.pos = .w6 x ∧ dataResponse x = some c))) ∧
    (selectedInsideBracket s → t.xpt.csN = false)) ∧
  (∀ (s : State) (r : Byte), s.halted = false →
    (∀ who, s.ioseq.pos = .test (.cmd17 who) r →
      (r ≠ 0 → (ioAgent s).halted = true ∧ (ioAgent s).fatalCode = .readCmdRejected) ∧
      (r = 0 → ioAgent s = { s with ioseq := { s.ioseq with pos := .rd3 who } })) ∧
    (s.ioseq.pos = .test .cmd24 r →
      (r ≠ 0 → (ioAgent s).halted = true ∧ (ioAgent s).fatalCode = .writeCmdRejected) ∧
      (r = 0 → ioAgent s = { s with ioseq := { s.ioseq with pos := .w3 } })))

/-- 60_exceptions.md R287: while halted every CMD write is refused with 5, no agent has a step, ARG can be written, a
window write is an access error, a window read that R86 allows returns its bytes, MODOUT still pops, and only reset
leaves the halted state. That the window read keeps R86's other conditions is the model's reading (log entry 13). -/
def Obligations.HaltedBlock : Prop :=
  ∀ s : State, s.halted = true →
    (∀ w, busWrite 0x000 4 w s = .next { s with err := .halted }) ∧
    modAgent s = s ∧ ioAgent s = s ∧ drainAgent s = s ∧
    (∀ v, busWrite 0x004 4 v s = .next { s with arg := v }) ∧
    (∀ (off : Offset) (v : Word), 0x800 ≤ off.toNat → off.toNat < 0xC00 →
      busWrite off 4 v s = .next { s with err := .access }) ∧
    (s.ioseq.busy = false → (s.str.state = .idle ∨ s.str.state = .stopped) →
      ∀ (d : BufIdx) (k : Fin 128) (off : Offset) (b : Fin 4 → Byte),
        off.toNat = 0x800 + 512 * d.val + 4 * k.val →
        (∀ (j : Fin 4) (i : SectorIdx), i.val = 4 * k.val + j.val →
          Memory.read s.bufs (cellAddr d i) = some (b j)) →
        busRead off 4 s = (b 3 ++ b 2 ++ b 1 ++ b 0, s)) ∧
    (∀ b q, s.mod.mq = b :: q → (busRead 0x01C 4 s).2.mod.mq = q) ∧
    (∀ t, step s = .next t → t.halted = false → s.nextTurn = .rstN true ∧ s.env.rstN = false)

/-- 42_storage.md R216 to R221, R214: the lines of INIT that decide, and the step that records the result. Ten CMD0
frames at most, then `Failed(Cmd0)`. -/
def Obligations.InitLines : Prop :=
  ∀ s : State, s.halted = false →
    (∀ n r, s.ioseq.pos = .test (.cmd0 n) r → ioAgent s =
      { s with
        ioseq :=
          { s.ioseq with
            pos :=
              if r = 0x01 then .send .cmd8 .s1
              else if n < 10 then .send (.cmd0 (n + 1)) .s1 else .initReturn (some .cmd0) } }) ∧
    (∀ r, s.ioseq.pos = .test .cmd8 r → ioAgent s =
      { s with ioseq := { s.ioseq with pos := if r = 0x01 then .i3trail 0 else .close .cmd8Failed .e1 } }) ∧
    (∀ r, s.ioseq.pos = .test .cmd55 r → ioAgent s =
      { s with
        ioseq :=
          { s.ioseq with
            pos :=
              if r = 0x01 then .send .acmd41 .s1 else .initReturn (some .cmd55) } }) ∧
    (∀ r, s.ioseq.pos = .test .acmd41 r → ioAgent s =
      { s with ioseq := { s.ioseq with pos := if r = 0x01 then .send .cmd55 .s1 else .send .cmd16 .s1 } }) ∧
    (∀ r, s.ioseq.pos = .test .cmd16 r → ioAgent s =
      { s with
        ioseq :=
          { s.ioseq with
            pos :=
              if r = 0x00 then .initReturn none else .initReturn (some .cmd16) } }) ∧
    (∀ n, s.ioseq.pos = .i1clk n → (ioAgent s).ioseq.pos =
      if n + 1 < 100 then .i1clk (n + 1) else .send (.cmd0 1) .s1) ∧
    (∀ n, s.ioseq.pos = .i3trail n → (ioAgent s).ioseq.pos =
      if n + 1 < 4 then .i3trail (n + 1) else .close .cmd8 .e1) ∧
    (∀ f, s.ioseq.pos = .initReturn f → ioAgent s =
      { s with
        session := (match f with | none => .ready | some x => .failed x)
        ioseq := { s.ioseq with busy := false, pos := .idle } })

/-- 42_storage.md R229: the transitions of SESSION, and no other: nothing leaves `Ready` but reset, and a fatal error
leaves SESSION as it was. -/
def Obligations.SessionTransitions : Prop :=
  ∀ s t : State, initRunsUninitialized s → step s = .next t →
    t.session = s.session ∨
    (t.session = .uninitialized ∧ s.nextTurn = .rstN true ∧ s.env.rstN = false) ∨
    (s.session ≠ .ready ∧ t.session = .uninitialized ∧ s.nextTurn = .host (.write 0x000 4 0x00000030)) ∨
    (s.session = .uninitialized ∧ s.nextTurn = .ioseq ∧
      ∃ f, s.ioseq.pos = .initReturn f ∧ t.session = (match f with | none => .ready | some x => .failed x))

/-! ## Streaming -/

/-- 43_streaming.md R253: the drain step. It emits the byte at the cursor with one strobe and advances the cursor; at
byte 511 it swaps the roles, asks for a refill, and records a glitch if a refill is still due; it changes nothing
else. At a cell that is unwritten the byte is any byte, and MFAULT is set and the model's own counter of such reads
may advance (20_memory.md R88; log entry 3). DRAIN has this step exactly while IRQ_EN = 1, OUT_READY = 1 and
HALTED = 0 (R261), so nothing is emitted while priming or after the stop (R255); that its turn passes otherwise is
the model's choice (log entry 1). -/
def Obligations.DrainStepEffect : Prop :=
  (∀ s : State, s.str.irqEn = true → s.env.outReady = true → s.halted = false →
    ∃ (b : Byte) (fault : Bool) (draws : Nat),
      (∀ x, Memory.read s.bufs (cellAddr s.str.role s.str.cursor) = some x →
        b = x ∧ fault = s.mfault ∧ draws = s.env.draws) ∧
      (Memory.read s.bufs (cellAddr s.str.role s.str.cursor) = none → fault = true) ∧
      (s.str.cursor = 511 → drainAgent s =
        { s with
          str := { s.str with role := 1 - s.str.role, cursor := 0, refillReq := true }
          glitch := s.glitch || (s.str.refillReq || s.ioseq.pos == .l2 || s.ioseq.pos == .l3 || s.ioseq.pos.inL4)
          mfault := fault
          env :=
            { s.env with outByte := b, outValid := true, emitted := s.env.emitted ++ [b], draws := draws } }) ∧
      (s.str.cursor ≠ 511 → drainAgent s =
        { s with
          str := { s.str with cursor := s.str.cursor + 1 }
          mfault := fault
          env :=
            { s.env with outByte := b, outValid := true, emitted := s.env.emitted ++ [b], draws := draws } })) ∧
  (∀ s : State, ¬ (s.str.irqEn = true ∧ s.env.outReady = true ∧ s.halted = false) → drainAgent s = s)

/-- 43_streaming.md R257, R259: from cursor c, exactly 512 - c drain steps emit the rest of the transmitting buffer
in order and end with the swap (after a swap c is 0, so 512 steps lie between swaps). -/
def Obligations.DrainPlaysRestOfBuffer : Prop :=
  ∀ s : State, s.str.irqEn = true → s.env.outReady = true → s.halted = false →
    (∀ j : SectorIdx, s.str.cursor ≤ j → ∃ b, Memory.read s.bufs (cellAddr s.str.role j) = some b) →
    (∀ k, k < 512 - s.str.cursor.val → (drainTurns k s).str.role = s.str.role) ∧
    (drainTurns (512 - s.str.cursor.val) s).str =
      { s.str with role := 1 - s.str.role, cursor := 0, refillReq := true } ∧
    (drainTurns (512 - s.str.cursor.val) s).env.emitted =
      s.env.emitted ++ ((List.finRange 512).drop s.str.cursor.val).map
        (fun j => (Memory.read s.bufs (cellAddr s.str.role j)).getD 0) ∧
    (drainTurns (512 - s.str.cursor.val) s).bufs = s.bufs ∧
    (drainTurns (512 - s.str.cursor.val) s).mfault = s.mfault

/-- 43_streaming.md R263: each swap sets ROLE to the opposite of its value, and no step but a swap writes ROLE while
ACTIVE (reset, which leaves ACTIVE, apart). -/
def Obligations.SwapLaw : Prop :=
  (∀ s t : State, step s = .next t → s.str.state = .active → t.str.role ≠ s.str.role →
    (s.nextTurn = .drain ∧ s.str.cursor = 511 ∧ t.str.role = 1 - s.str.role) ∨
      (s.nextTurn = .rstN true ∧ t.str.state = .idle)) ∧
  (∀ s : State, s.str.irqEn = true → s.env.outReady = true → s.halted = false → s.str.cursor = 511 →
    (drainAgent s).str.role = 1 - s.str.role ∧ (drainAgent s).str.role ≠ s.str.role)

/-- 43_streaming.md R252, R254, R255: the lines of priming and of the foreground loop. P1's read is followed by P2's
and P2's by P3; L1 waits for the request; L2 clears it; L3 latches the Filling buffer and the read begins, L5 follows
it, advances the counter and stops at the maximum. -/
def Obligations.RefillLines : Prop :=
  ∀ s : State, s.halted = false →
    (s.ioseq.pos = .close (.cmd17 .prime0) .e2 → (ioAgent s).ioseq = { s.ioseq with pos := .rd1 .prime1 }) ∧
    (s.ioseq.pos = .close (.cmd17 .prime1) .e2 → (ioAgent s).ioseq = { s.ioseq with pos := .p3 }) ∧
    (s.ioseq.pos = .close (.cmd17 .refill) .e2 → (ioAgent s).ioseq = { s.ioseq with pos := .l5 }) ∧
    (s.ioseq.pos = .p3 → ioAgent s =
      { s with
        str := { s.str with next := 2, state := .active, irqEn := true }
        ioseq := { s.ioseq with pos := .l1 } }) ∧
    (s.ioseq.pos = .l1 → s.str.refillReq = false → ioAgent s = s) ∧
    (s.ioseq.pos = .l1 → s.str.refillReq = true → ioAgent s = { s with ioseq := { s.ioseq with pos := .l2 } }) ∧
    (s.ioseq.pos = .l2 → ioAgent s =
      { s with str := { s.str with refillReq := false }, ioseq := { s.ioseq with pos := .l3 } }) ∧
    (s.ioseq.pos = .l3 → ioAgent s =
      { s with ioseq := { s.ioseq with tgt := 1 - s.str.role, pos := .rd1 .refill } }) ∧
    (s.ioseq.pos = .l5 → s.str.next + 1 = s.str.max → ioAgent s =
      { s with
        str := { s.str with next := s.str.max, irqEn := false, state := .stopped }
        ioseq := { s.ioseq with busy := false, pos := .idle } }) ∧
    (s.ioseq.pos = .l5 → s.str.next + 1 ≠ s.str.max → ioAgent s =
      { s with str := { s.str with next := s.str.next + 1 }, ioseq := { s.ioseq with pos := .l1 } })

/-- 60_exceptions.md R290, 43_streaming.md R252, R255, R262: IRQ_EN is set only by IOSEQ at P3; it is cleared only by
IOSEQ's stop at L5, by a fatal error or by reset. HOST can do neither. -/
def Obligations.IrqEnWriters : Prop :=
  ∀ s t : State, drainOnlyWhileActive s → step s = .next t →
    (s.str.irqEn = false → t.str.irqEn = true → s.nextTurn = .ioseq ∧ s.ioseq.pos = .p3) ∧
    (s.str.irqEn = true → t.str.irqEn = false →
      (s.nextTurn = .ioseq ∧ s.ioseq.pos = .l5 ∧ t.str.state = .stopped) ∨
      (s.nextTurn = .ioseq ∧ t.halted = true) ∨
      (s.nextTurn = .rstN true ∧ s.env.rstN = false))

/-- 10_state.md R43: the transitions of STR_STATE, and no other; only reset leaves STOPPED. -/
def Obligations.StrStateTransitions : Prop :=
  ∀ s t : State, sequencerInvariant s → step s = .next t →
    t.str.state = s.str.state ∨
    (s.str.state = .idle ∧ t.str.state = .priming ∧ s.nextTurn = .host (.write 0x000 4 0x00000041)) ∨
    (s.str.state = .priming ∧ t.str.state = .active ∧ s.nextTurn = .ioseq ∧ s.ioseq.pos = .p3) ∨
    (s.str.state = .active ∧ t.str.state = .stopped ∧ s.nextTurn = .ioseq ∧ s.ioseq.pos = .l5) ∨
    (t.str.state = .idle ∧ s.nextTurn = .rstN true ∧ s.env.rstN = false)

/-! ## The host bus -/

/-- 20_memory.md R83, R86: the word at 0x800 + 512 d + 4 k holds BUF[d][4k..4k+3]. An allowed write sets these four
bytes, the least significant one at the lowest index, and nothing else; reading it back gives the word. An allowed
read, of a halted block too (60_exceptions.md R287), returns the four bytes in that order and changes nothing. -/
def Obligations.WindowWriteReadsBack : Prop :=
  ∀ (s : State) (d : BufIdx) (k : Fin 128) (off : Offset), off.toNat = 0x800 + 512 * d.val + 4 * k.val →
    s.ioseq.busy = false → (s.str.state = .idle ∨ s.str.state = .stopped) →
    (s.halted = false → ∀ v : Word, ∃ m : Memory, busWrite off 4 v s = .next { s with bufs := m } ∧
      (∀ (j : Nat) (i : SectorIdx), j < 4 → i.val = 4 * k.val + j →
        Memory.read m (cellAddr d i) = some (v.extractLsb' (8 * j) 8)) ∧
      (∀ a, (a < off.toNat ∨ off.toNat + 4 ≤ a) → Memory.read m a = Memory.read s.bufs a) ∧
      busRead off 4 { s with bufs := m } = (v, { s with bufs := m })) ∧
    (∀ b : Fin 4 → Byte,
      (∀ (j : Fin 4) (i : SectorIdx), i.val = 4 * k.val + j.val →
        Memory.read s.bufs (cellAddr d i) = some (b j)) →
      busRead off 4 s = (b 3 ++ b 2 ++ b 1 ++ b 0, s))

/-- 20_memory.md R85, R86, R81: an access that is not 32 bits at a multiple of 4, an unmapped offset, a read of CMD,
a write of a read-only register and a window access that is not allowed are access errors: a read returns 0, and
nothing changes but `ERR <- 6`. That R86's condition also binds a window read of a block halted while streaming is the
model's reading of R86 and 60_exceptions.md R287 (log entry 13). -/
def Obligations.AccessErrors : Prop :=
  (∀ (s : State) (off : Offset) (bytes : Nat),
    (bytes ≠ 4 ∨ off.toNat % 4 ≠ 0 ∨ (0x038 ≤ off.toNat ∧ off.toNat < 0x800) ∨ 0xC00 ≤ off.toNat ∨
      off.toNat = 0x000 ∨
      (0x800 ≤ off.toNat ∧ off.toNat < 0xC00 ∧
        (s.ioseq.busy = true ∨ s.str.state = .priming ∨ s.str.state = .active))) →
    busRead off bytes s = (0, { s with err := .access })) ∧
  (∀ (s : State) (off : Offset) (bytes : Nat) (v : Word),
    (bytes ≠ 4 ∨ off.toNat % 4 ≠ 0 ∨ (0x008 ≤ off.toNat ∧ off.toNat < 0x800) ∨ 0xC00 ≤ off.toNat ∨
      (0x800 ≤ off.toNat ∧ off.toNat < 0xC00 ∧
        (s.ioseq.busy = true ∨ s.str.state = .priming ∨ s.str.state = .active ∨ s.halted = true))) →
    busWrite off bytes v s = .next { s with err := .access })

/-- 10_state.md R50 to R61, 20_memory.md R81, R87: what each register read returns; no such read changes any state.
A write of ARG sets ARG and nothing else. -/
def Obligations.RegisterReads : Prop :=
  ∀ s : State,
    busRead 0x004 4 s = (s.arg, s) ∧ busRead 0x008 4 s = (statusWord s, s) ∧
    (busRead 0x00C 4 s).1.toNat = s.xpt.rxdata.toNat ∧ (busRead 0x00C 4 s).2 = s ∧
    busRead 0x010 4 s = (s.mod.a, s) ∧ busRead 0x014 4 s = (s.mod.b, s) ∧
    (busRead 0x018 4 s).1.toNat = s.mod.r.toNat + (if s.mod.ssel then 65536 else 0) ∧
    (busRead 0x018 4 s).2 = s ∧
    (busRead 0x020 4 s).1.toNat = s.mod.pack.toNat + 256 * s.mod.nbits.val ∧ (busRead 0x020 4 s).2 = s ∧
    (busRead 0x024 4 s).1.toNat = min s.mod.mq.length 4294967295 ∧ (busRead 0x024 4 s).2 = s ∧
    busRead 0x028 4 s = (s.str.max, s) ∧ busRead 0x02C 4 s = (s.str.next, s) ∧
    (busRead 0x030 4 s).1.toNat = s.str.cursor.val ∧ (busRead 0x030 4 s).2 = s ∧
    busRead 0x034 4 s = (s.mod.remain, s) ∧
    (∀ v, busWrite 0x004 4 v s = .next { s with arg := v })

/-- 10_state.md R51: every bit of STATUS; a read returns it with no side effect; every write is refused; at reset it
is 0x0000_2000. The codes its fields show are those of R34, R41, R43, 60_exceptions.md R281 and R285. -/
def Obligations.StatusBits : Prop :=
  (∀ s : State,
    busRead 0x008 4 s = (statusWord s, s) ∧
    (∀ v, busWrite 0x008 4 v s = .next { s with err := .access }) ∧
    (statusWord s).getLsbD 0 = s.mod.busy ∧ (statusWord s).getLsbD 1 = s.ioseq.busy ∧
    (statusWord s).extractLsb' 2 2 = s.mod.phase.code ∧ (statusWord s).getLsbD 4 = s.mod.ovf ∧
    (statusWord s).extractLsb' 5 3 = s.session.code ∧ (statusWord s).extractLsb' 8 2 = s.str.state.code ∧
    (statusWord s).getLsbD 10 = s.str.irqEn ∧ (statusWord s).getLsbD 11 = s.str.refillReq ∧
    ((statusWord s).getLsbD 12 = true ↔ s.str.role = 1) ∧ (statusWord s).getLsbD 13 = s.xpt.csN ∧
    (statusWord s).getLsbD 14 = s.halted ∧ (statusWord s).getLsbD 15 = false ∧
    (statusWord s).extractLsb' 16 4 = s.fatalCode.code ∧ (statusWord s).extractLsb' 20 4 = s.err.code ∧
    (statusWord s).extractLsb' 24 8 = 0) ∧
  statusWord State.reset = 0x00002000 ∧
  [ModPhase.unconfig, .configured, .primed, .ended].map ModPhase.code = [0, 1, 2, 3] ∧
  [Session.uninitialized, .ready, .failed .cmd0, .failed .cmd8, .failed .cmd55, .failed .cmd16].map Session.code =
    [0, 1, 2, 3, 4, 5] ∧
  [StrState.idle, .priming, .active, .stopped].map StrState.code = [0, 1, 2, 3] ∧
  [ErrCode.ok, .illegal, .busy, .state, .arg, .halted, .access].map ErrCode.code = [0, 1, 2, 3, 4, 5, 6] ∧
  [FatalCode.none, .readCmdRejected, .readStartTokenMissing, .writeCmdRejected, .invalidDataResponse, .crcError,
    .writeError, .unknownError].map FatalCode.code = [0, 1, 2, 3, 4, 5, 6, 7]

/-! ## Reset and records -/

/-- 70_reset_and_hazards.md R322, 10_state.md R62: what reset leaves, as the registers show it and then every row of
R62's table. -/
def Obligations.StateAfterReset : Prop :=
  busRead 0x008 4 State.reset = (0x00002000, State.reset) ∧
  State.reset.session = .uninitialized ∧ State.reset.str.state = .idle ∧ State.reset.mod.phase = .unconfig ∧
  State.reset.mod.mq = [] ∧
  (∀ off ∈ ([0x00C, 0x010, 0x014, 0x018, 0x01C, 0x020, 0x024, 0x028, 0x02C, 0x030, 0x034] : List Offset),
    busRead off 4 State.reset = (0, State.reset)) ∧
  (∀ (d : BufIdx) (i : SectorIdx), Memory.read State.reset.bufs (cellAddr d i) = none) ∧
  State.reset.xpt.csN = true ∧ State.reset.xpt.sck = false ∧ State.reset.xpt.mosi = true ∧
  State.reset.env.outValid = false ∧ State.reset.arg = 0 ∧ State.reset.err = .ok ∧ State.reset.halted = false ∧
  State.reset.fatalCode = .none ∧ State.reset.glitch = false ∧
  State.reset.mod =
    { a := 0, b := 0, r := 0, ssel := false, phase := .unconfig, pack := 0, nbits := 0, mq := [], busy := false,
      kind := .none, remain := 0, curS := 0, curE := false, ovf := false } ∧
  State.reset.xpt = { csN := true, sck := false, mosi := true, rxdata := 0x00, bit := 0, tx := 0, rx := 0 } ∧
  State.reset.ioseq = { busy := false, pos := .idle, arg := 0, d := 0, tgt := 0 } ∧
  State.reset.str =
    { state := .idle, role := 0, cursor := 0, refillReq := false, next := 0, max := 0, irqEn := false } ∧
  State.reset.bufs = []

/-- 70_reset_and_hazards.md R320, R321: the rise of RST_N sets every piece of block state to its reset value in one
step, whatever was in progress; MFAULT, the transcript and what is outside the block keep their values. That
OUT_BYTE and the records of HOST and OUTDEV are outside the block is the model's choice (log entries 5, 6). -/
def Obligations.ResetEvent : Prop :=
  ∀ s : State, s.env.rstN = false → s.nextTurn = .rstN true →
    step s = .next
      { State.reset with mfault := s.mfault, env := { s.takeTurn.env with rstN := true } } ∧
    s.takeTurn.env.transcript = s.env.transcript ∧ s.takeTurn.env.emitted = s.env.emitted ∧
    s.takeTurn.env.popped = s.env.popped

/-- 10_state.md R45: ERR is written by a CMD write, by an access error (with ACCESS) and by reset (to OK), and by
nothing else. -/
def Obligations.ErrWriters : Prop :=
  ∀ s t : State, step s = .next t →
    t.err = s.err ∨
    (∃ w, s.nextTurn = .host (.write 0x000 4 w)) ∨
    (t.err = .access ∧ ∃ a, s.nextTurn = .host a) ∨
    (t.err = .ok ∧ s.nextTurn = .rstN true ∧ s.env.rstN = false)

/-- 20_memory.md R88, 60_exceptions.md R280, 42_storage.md R223: a read of an unwritten cell sets MFAULT, whether
HOST makes it through the window (no block state changes), DRAIN makes it, or the sector write at W4 (some byte is
sent); a read of written cells sets none; no step clears MFAULT, reset included. The counter `draws` and the free
byte are the model's own (log entry 3), and what XPT_TX, XPT_RX and the list of decided answers keep at W4 is the
model's choice (log entries 7, 2). -/
def Obligations.UnwrittenCellSetsMfault : Prop :=
  (∀ (s : State) (off : Offset), 0x800 ≤ off.toNat → off.toNat < 0xC00 → off.toNat % 4 = 0 →
    s.ioseq.busy = false → (s.str.state = .idle ∨ s.str.state = .stopped) →
    ((∃ j, j < 4 ∧ Memory.read s.bufs (off.toNat + j) = none) →
      ∃ d, (busRead off 4 s).2 = { s with mfault := true, env := { s.env with draws := d } }) ∧
    ((∀ j, j < 4 → ∃ b, Memory.read s.bufs (off.toNat + j) = some b) → (busRead off 4 s).2 = s)) ∧
  (∀ s : State, drainEnabled s = true →
    (Memory.read s.bufs (cellAddr s.str.role s.str.cursor) = none → (drainAgent s).mfault = true) ∧
    ((∃ b, Memory.read s.bufs (cellAddr s.str.role s.str.cursor) = some b) →
      (drainAgent s).mfault = s.mfault)) ∧
  (∀ (s : State) (i : SectorIdx), s.halted = false → s.ioseq.pos = .w4 i →
    (Memory.read s.bufs (cellAddr s.ioseq.d i) = none → ∃ (b : Byte) (d : Nat), ioAgent s =
      afterExchange b (if i = 511 then .w5 else .w4 (i + 1))
        { s with mfault := true, env := { s.env with draws := d } }) ∧
    (∀ b, Memory.read s.bufs (cellAddr s.ioseq.d i) = some b →
      ioAgent s = afterExchange b (if i = 511 then .w5 else .w4 (i + 1)) s)) ∧
  (∀ s t : State, step s = .next t → s.mfault = true → t.mfault = true)

/-! ## Invariants every step keeps -/

/-- 20_memory.md R81, R86, 10_state.md R48: the buffer memory keeps its canonical form: only cells of the two
buffers, each once. -/
def Obligations.MemoryCanonicalKept : Prop :=
  ∀ s t : State, memoryCanonical s → step s = .next t → memoryCanonical t

/-- 43_streaming.md R256: while GLITCH is 0, a refill never writes the transmitting buffer. -/
def Obligations.OwnershipKept : Prop :=
  ∀ s t : State, ownership s → step s = .next t → ownership t

/-- 10_state.md R37, 40_modulator.md R142 to R144, R151: MOD is busy exactly while a command's kind is recorded and
steps remain, and the command fits the phase; it needs MOD_R to be at least 1 once configured. -/
def Obligations.ModCommandKept : Prop :=
  ∀ s t : State,
    modBusyWhileStepsRemain s ∧ modKindFitsPhase s ∧ (s.mod.phase ≠ .unconfig → s.mod.r ≠ 0) →
    step s = .next t →
    modBusyWhileStepsRemain t ∧ modKindFitsPhase t ∧ (t.mod.phase ≠ .unconfig → t.mod.r ≠ 0)

/-- 40_modulator.md R150: MQ never holds more than MOD_OUT_DEPTH bytes, and no byte is dropped to keep it so. -/
def Obligations.QueueWithinDepthKept : Prop :=
  ∀ s t : State, queueWithinDepth s → step s = .next t → queueWithinDepth t

/-- 60_exceptions.md R285 to R287, 10_state.md R46: the latch holds a reason exactly while halted, code 2 is never
written, a halted block is quiet; and the card's lines rest between steps (41_transport.md R196). -/
def Obligations.FatalLatchKept : Prop :=
  ∀ s t : State, haltedIsQuiet s ∧ fatalLatch s ∧ linesAtRest s → step s = .next t →
    haltedIsQuiet t ∧ fatalLatch t ∧ linesAtRest t

/-- 10_state.md R42, R43, 42_storage.md R214 to R223, 43_streaming.md R251 to R255, 60_exceptions.md R290: IO_BUSY
follows IO_POS, INIT runs `Uninitialized`, its loops stay in their bounds (at most 10 CMD0 frames), the drain is
enabled exactly while streaming, STR_STATE follows IO_POS, and the card is selected inside a bracket. -/
def Obligations.SequencerInvariantKept : Prop :=
  ∀ s t : State, sequencerInvariant s → step s = .next t → sequencerInvariant t

/-- Every invariant above holds at reset. -/
def Obligations.InvariantsAtReset : Prop :=
  memoryCanonical State.reset ∧ ownership State.reset ∧ modBusyWhileStepsRemain State.reset ∧
  modKindFitsPhase State.reset ∧ (State.reset.mod.phase ≠ .unconfig → State.reset.mod.r ≠ 0) ∧
  queueWithinDepth State.reset ∧ haltedIsQuiet State.reset ∧ fatalLatch State.reset ∧
  linesAtRest State.reset ∧ sequencerInvariant State.reset

/-- 41_transport.md R195: a byte received while the card is deselected reaches only RXDATA (with XPT_RX and the
transcript, which record it): two turns of IOSEQ that differ in it alone end alike. XPT_RX and the list of CARD's
decided answers are the model's choice (log entries 7, 2). -/
def Obligations.DeselectedBytesIgnored : Prop :=
  ∀ (s : State) (b b' : Byte) (rest : List Byte), selectedInsideBracket s → s.xpt.csN = true →
    forgetReceived (ioAgent { s with env := { s.env with cardScript := b :: rest } }) =
      forgetReceived (ioAgent { s with env := { s.env with cardScript := b' :: rest } })
end

