-- ==== Sys2Proof/Laws/State.lean ====
section
/-! SUPPORT. What each named update of State leaves in each field, one lemma a pair, so that no later proof
unfolds a record update. -/

namespace Sys2Proof.Machine

@[simp] theorem State.withMod_mod (s : State) (x : Mod) : (s.withMod x).mod = x := rfl
@[simp] theorem State.withMod_xpt (s : State) (x : Mod) : (s.withMod x).xpt = s.xpt := rfl
@[simp] theorem State.withMod_session (s : State) (x : Mod) : (s.withMod x).session = s.session := rfl
@[simp] theorem State.withMod_ioseq (s : State) (x : Mod) : (s.withMod x).ioseq = s.ioseq := rfl
@[simp] theorem State.withMod_str (s : State) (x : Mod) : (s.withMod x).str = s.str := rfl
@[simp] theorem State.withMod_bufs (s : State) (x : Mod) : (s.withMod x).bufs = s.bufs := rfl
@[simp] theorem State.withMod_arg (s : State) (x : Mod) : (s.withMod x).arg = s.arg := rfl
@[simp] theorem State.withMod_err (s : State) (x : Mod) : (s.withMod x).err = s.err := rfl
@[simp] theorem State.withMod_halted (s : State) (x : Mod) : (s.withMod x).halted = s.halted := rfl
@[simp] theorem State.withMod_fatalCode (s : State) (x : Mod) : (s.withMod x).fatalCode = s.fatalCode := rfl
@[simp] theorem State.withMod_glitch (s : State) (x : Mod) : (s.withMod x).glitch = s.glitch := rfl
@[simp] theorem State.withMod_mfault (s : State) (x : Mod) : (s.withMod x).mfault = s.mfault := rfl
@[simp] theorem State.withMod_env (s : State) (x : Mod) : (s.withMod x).env = s.env := rfl

@[simp] theorem State.withXpt_mod (s : State) (x : Xpt) : (s.withXpt x).mod = s.mod := rfl
@[simp] theorem State.withXpt_xpt (s : State) (x : Xpt) : (s.withXpt x).xpt = x := rfl
@[simp] theorem State.withXpt_session (s : State) (x : Xpt) : (s.withXpt x).session = s.session := rfl
@[simp] theorem State.withXpt_ioseq (s : State) (x : Xpt) : (s.withXpt x).ioseq = s.ioseq := rfl
@[simp] theorem State.withXpt_str (s : State) (x : Xpt) : (s.withXpt x).str = s.str := rfl
@[simp] theorem State.withXpt_bufs (s : State) (x : Xpt) : (s.withXpt x).bufs = s.bufs := rfl
@[simp] theorem State.withXpt_arg (s : State) (x : Xpt) : (s.withXpt x).arg = s.arg := rfl
@[simp] theorem State.withXpt_err (s : State) (x : Xpt) : (s.withXpt x).err = s.err := rfl
@[simp] theorem State.withXpt_halted (s : State) (x : Xpt) : (s.withXpt x).halted = s.halted := rfl
@[simp] theorem State.withXpt_fatalCode (s : State) (x : Xpt) : (s.withXpt x).fatalCode = s.fatalCode := rfl
@[simp] theorem State.withXpt_glitch (s : State) (x : Xpt) : (s.withXpt x).glitch = s.glitch := rfl
@[simp] theorem State.withXpt_mfault (s : State) (x : Xpt) : (s.withXpt x).mfault = s.mfault := rfl
@[simp] theorem State.withXpt_env (s : State) (x : Xpt) : (s.withXpt x).env = s.env := rfl

@[simp] theorem State.withSession_mod (s : State) (x : Session) : (s.withSession x).mod = s.mod := rfl
@[simp] theorem State.withSession_xpt (s : State) (x : Session) : (s.withSession x).xpt = s.xpt := rfl
@[simp] theorem State.withSession_session (s : State) (x : Session) : (s.withSession x).session = x := rfl
@[simp] theorem State.withSession_ioseq (s : State) (x : Session) : (s.withSession x).ioseq = s.ioseq := rfl
@[simp] theorem State.withSession_str (s : State) (x : Session) : (s.withSession x).str = s.str := rfl
@[simp] theorem State.withSession_bufs (s : State) (x : Session) : (s.withSession x).bufs = s.bufs := rfl
@[simp] theorem State.withSession_arg (s : State) (x : Session) : (s.withSession x).arg = s.arg := rfl
@[simp] theorem State.withSession_err (s : State) (x : Session) : (s.withSession x).err = s.err := rfl
@[simp] theorem State.withSession_halted (s : State) (x : Session) : (s.withSession x).halted = s.halted := rfl
@[simp] theorem State.withSession_fatalCode (s : State) (x : Session) : (s.withSession x).fatalCode = s.fatalCode := rfl
@[simp] theorem State.withSession_glitch (s : State) (x : Session) : (s.withSession x).glitch = s.glitch := rfl
@[simp] theorem State.withSession_mfault (s : State) (x : Session) : (s.withSession x).mfault = s.mfault := rfl
@[simp] theorem State.withSession_env (s : State) (x : Session) : (s.withSession x).env = s.env := rfl

@[simp] theorem State.withIo_mod (s : State) (x : IoSeq) : (s.withIo x).mod = s.mod := rfl
@[simp] theorem State.withIo_xpt (s : State) (x : IoSeq) : (s.withIo x).xpt = s.xpt := rfl
@[simp] theorem State.withIo_session (s : State) (x : IoSeq) : (s.withIo x).session = s.session := rfl
@[simp] theorem State.withIo_ioseq (s : State) (x : IoSeq) : (s.withIo x).ioseq = x := rfl
@[simp] theorem State.withIo_str (s : State) (x : IoSeq) : (s.withIo x).str = s.str := rfl
@[simp] theorem State.withIo_bufs (s : State) (x : IoSeq) : (s.withIo x).bufs = s.bufs := rfl
@[simp] theorem State.withIo_arg (s : State) (x : IoSeq) : (s.withIo x).arg = s.arg := rfl
@[simp] theorem State.withIo_err (s : State) (x : IoSeq) : (s.withIo x).err = s.err := rfl
@[simp] theorem State.withIo_halted (s : State) (x : IoSeq) : (s.withIo x).halted = s.halted := rfl
@[simp] theorem State.withIo_fatalCode (s : State) (x : IoSeq) : (s.withIo x).fatalCode = s.fatalCode := rfl
@[simp] theorem State.withIo_glitch (s : State) (x : IoSeq) : (s.withIo x).glitch = s.glitch := rfl
@[simp] theorem State.withIo_mfault (s : State) (x : IoSeq) : (s.withIo x).mfault = s.mfault := rfl
@[simp] theorem State.withIo_env (s : State) (x : IoSeq) : (s.withIo x).env = s.env := rfl

@[simp] theorem State.withStr_mod (s : State) (x : Str) : (s.withStr x).mod = s.mod := rfl
@[simp] theorem State.withStr_xpt (s : State) (x : Str) : (s.withStr x).xpt = s.xpt := rfl
@[simp] theorem State.withStr_session (s : State) (x : Str) : (s.withStr x).session = s.session := rfl
@[simp] theorem State.withStr_ioseq (s : State) (x : Str) : (s.withStr x).ioseq = s.ioseq := rfl
@[simp] theorem State.withStr_str (s : State) (x : Str) : (s.withStr x).str = x := rfl
@[simp] theorem State.withStr_bufs (s : State) (x : Str) : (s.withStr x).bufs = s.bufs := rfl
@[simp] theorem State.withStr_arg (s : State) (x : Str) : (s.withStr x).arg = s.arg := rfl
@[simp] theorem State.withStr_err (s : State) (x : Str) : (s.withStr x).err = s.err := rfl
@[simp] theorem State.withStr_halted (s : State) (x : Str) : (s.withStr x).halted = s.halted := rfl
@[simp] theorem State.withStr_fatalCode (s : State) (x : Str) : (s.withStr x).fatalCode = s.fatalCode := rfl
@[simp] theorem State.withStr_glitch (s : State) (x : Str) : (s.withStr x).glitch = s.glitch := rfl
@[simp] theorem State.withStr_mfault (s : State) (x : Str) : (s.withStr x).mfault = s.mfault := rfl
@[simp] theorem State.withStr_env (s : State) (x : Str) : (s.withStr x).env = s.env := rfl

@[simp] theorem State.withBufs_mod (s : State) (x : Memory) : (s.withBufs x).mod = s.mod := rfl
@[simp] theorem State.withBufs_xpt (s : State) (x : Memory) : (s.withBufs x).xpt = s.xpt := rfl
@[simp] theorem State.withBufs_session (s : State) (x : Memory) : (s.withBufs x).session = s.session := rfl
@[simp] theorem State.withBufs_ioseq (s : State) (x : Memory) : (s.withBufs x).ioseq = s.ioseq := rfl
@[simp] theorem State.withBufs_str (s : State) (x : Memory) : (s.withBufs x).str = s.str := rfl
@[simp] theorem State.withBufs_bufs (s : State) (x : Memory) : (s.withBufs x).bufs = x := rfl
@[simp] theorem State.withBufs_arg (s : State) (x : Memory) : (s.withBufs x).arg = s.arg := rfl
@[simp] theorem State.withBufs_err (s : State) (x : Memory) : (s.withBufs x).err = s.err := rfl
@[simp] theorem State.withBufs_halted (s : State) (x : Memory) : (s.withBufs x).halted = s.halted := rfl
@[simp] theorem State.withBufs_fatalCode (s : State) (x : Memory) : (s.withBufs x).fatalCode = s.fatalCode := rfl
@[simp] theorem State.withBufs_glitch (s : State) (x : Memory) : (s.withBufs x).glitch = s.glitch := rfl
@[simp] theorem State.withBufs_mfault (s : State) (x : Memory) : (s.withBufs x).mfault = s.mfault := rfl
@[simp] theorem State.withBufs_env (s : State) (x : Memory) : (s.withBufs x).env = s.env := rfl

@[simp] theorem State.withArg_mod (s : State) (x : Word) : (s.withArg x).mod = s.mod := rfl
@[simp] theorem State.withArg_xpt (s : State) (x : Word) : (s.withArg x).xpt = s.xpt := rfl
@[simp] theorem State.withArg_session (s : State) (x : Word) : (s.withArg x).session = s.session := rfl
@[simp] theorem State.withArg_ioseq (s : State) (x : Word) : (s.withArg x).ioseq = s.ioseq := rfl
@[simp] theorem State.withArg_str (s : State) (x : Word) : (s.withArg x).str = s.str := rfl
@[simp] theorem State.withArg_bufs (s : State) (x : Word) : (s.withArg x).bufs = s.bufs := rfl
@[simp] theorem State.withArg_arg (s : State) (x : Word) : (s.withArg x).arg = x := rfl
@[simp] theorem State.withArg_err (s : State) (x : Word) : (s.withArg x).err = s.err := rfl
@[simp] theorem State.withArg_halted (s : State) (x : Word) : (s.withArg x).halted = s.halted := rfl
@[simp] theorem State.withArg_fatalCode (s : State) (x : Word) : (s.withArg x).fatalCode = s.fatalCode := rfl
@[simp] theorem State.withArg_glitch (s : State) (x : Word) : (s.withArg x).glitch = s.glitch := rfl
@[simp] theorem State.withArg_mfault (s : State) (x : Word) : (s.withArg x).mfault = s.mfault := rfl
@[simp] theorem State.withArg_env (s : State) (x : Word) : (s.withArg x).env = s.env := rfl

@[simp] theorem State.withErr_mod (s : State) (x : ErrCode) : (s.withErr x).mod = s.mod := rfl
@[simp] theorem State.withErr_xpt (s : State) (x : ErrCode) : (s.withErr x).xpt = s.xpt := rfl
@[simp] theorem State.withErr_session (s : State) (x : ErrCode) : (s.withErr x).session = s.session := rfl
@[simp] theorem State.withErr_ioseq (s : State) (x : ErrCode) : (s.withErr x).ioseq = s.ioseq := rfl
@[simp] theorem State.withErr_str (s : State) (x : ErrCode) : (s.withErr x).str = s.str := rfl
@[simp] theorem State.withErr_bufs (s : State) (x : ErrCode) : (s.withErr x).bufs = s.bufs := rfl
@[simp] theorem State.withErr_arg (s : State) (x : ErrCode) : (s.withErr x).arg = s.arg := rfl
@[simp] theorem State.withErr_err (s : State) (x : ErrCode) : (s.withErr x).err = x := rfl
@[simp] theorem State.withErr_halted (s : State) (x : ErrCode) : (s.withErr x).halted = s.halted := rfl
@[simp] theorem State.withErr_fatalCode (s : State) (x : ErrCode) : (s.withErr x).fatalCode = s.fatalCode := rfl
@[simp] theorem State.withErr_glitch (s : State) (x : ErrCode) : (s.withErr x).glitch = s.glitch := rfl
@[simp] theorem State.withErr_mfault (s : State) (x : ErrCode) : (s.withErr x).mfault = s.mfault := rfl
@[simp] theorem State.withErr_env (s : State) (x : ErrCode) : (s.withErr x).env = s.env := rfl

@[simp] theorem State.withHalt_mod (s : State) (x : FatalCode) : (s.withHalt x).mod = s.mod := rfl
@[simp] theorem State.withHalt_xpt (s : State) (x : FatalCode) : (s.withHalt x).xpt = s.xpt := rfl
@[simp] theorem State.withHalt_session (s : State) (x : FatalCode) : (s.withHalt x).session = s.session := rfl
@[simp] theorem State.withHalt_ioseq (s : State) (x : FatalCode) : (s.withHalt x).ioseq = s.ioseq := rfl
@[simp] theorem State.withHalt_str (s : State) (x : FatalCode) : (s.withHalt x).str = s.str := rfl
@[simp] theorem State.withHalt_bufs (s : State) (x : FatalCode) : (s.withHalt x).bufs = s.bufs := rfl
@[simp] theorem State.withHalt_arg (s : State) (x : FatalCode) : (s.withHalt x).arg = s.arg := rfl
@[simp] theorem State.withHalt_err (s : State) (x : FatalCode) : (s.withHalt x).err = s.err := rfl
@[simp] theorem State.withHalt_halted (s : State) (x : FatalCode) : (s.withHalt x).halted = true := rfl
@[simp] theorem State.withHalt_fatalCode (s : State) (x : FatalCode) : (s.withHalt x).fatalCode = x := rfl
@[simp] theorem State.withHalt_glitch (s : State) (x : FatalCode) : (s.withHalt x).glitch = s.glitch := rfl
@[simp] theorem State.withHalt_mfault (s : State) (x : FatalCode) : (s.withHalt x).mfault = s.mfault := rfl
@[simp] theorem State.withHalt_env (s : State) (x : FatalCode) : (s.withHalt x).env = s.env := rfl

@[simp] theorem State.withGlitch_mod (s : State) (x : Bool) : (s.withGlitch x).mod = s.mod := rfl
@[simp] theorem State.withGlitch_xpt (s : State) (x : Bool) : (s.withGlitch x).xpt = s.xpt := rfl
@[simp] theorem State.withGlitch_session (s : State) (x : Bool) : (s.withGlitch x).session = s.session := rfl
@[simp] theorem State.withGlitch_ioseq (s : State) (x : Bool) : (s.withGlitch x).ioseq = s.ioseq := rfl
@[simp] theorem State.withGlitch_str (s : State) (x : Bool) : (s.withGlitch x).str = s.str := rfl
@[simp] theorem State.withGlitch_bufs (s : State) (x : Bool) : (s.withGlitch x).bufs = s.bufs := rfl
@[simp] theorem State.withGlitch_arg (s : State) (x : Bool) : (s.withGlitch x).arg = s.arg := rfl
@[simp] theorem State.withGlitch_err (s : State) (x : Bool) : (s.withGlitch x).err = s.err := rfl
@[simp] theorem State.withGlitch_halted (s : State) (x : Bool) : (s.withGlitch x).halted = s.halted := rfl
@[simp] theorem State.withGlitch_fatalCode (s : State) (x : Bool) : (s.withGlitch x).fatalCode = s.fatalCode := rfl
@[simp] theorem State.withGlitch_glitch (s : State) (x : Bool) : (s.withGlitch x).glitch = x := rfl
@[simp] theorem State.withGlitch_mfault (s : State) (x : Bool) : (s.withGlitch x).mfault = s.mfault := rfl
@[simp] theorem State.withGlitch_env (s : State) (x : Bool) : (s.withGlitch x).env = s.env := rfl

@[simp] theorem State.withMfault_mod (s : State) (x : Bool) : (s.withMfault x).mod = s.mod := rfl
@[simp] theorem State.withMfault_xpt (s : State) (x : Bool) : (s.withMfault x).xpt = s.xpt := rfl
@[simp] theorem State.withMfault_session (s : State) (x : Bool) : (s.withMfault x).session = s.session := rfl
@[simp] theorem State.withMfault_ioseq (s : State) (x : Bool) : (s.withMfault x).ioseq = s.ioseq := rfl
@[simp] theorem State.withMfault_str (s : State) (x : Bool) : (s.withMfault x).str = s.str := rfl
@[simp] theorem State.withMfault_bufs (s : State) (x : Bool) : (s.withMfault x).bufs = s.bufs := rfl
@[simp] theorem State.withMfault_arg (s : State) (x : Bool) : (s.withMfault x).arg = s.arg := rfl
@[simp] theorem State.withMfault_err (s : State) (x : Bool) : (s.withMfault x).err = s.err := rfl
@[simp] theorem State.withMfault_halted (s : State) (x : Bool) : (s.withMfault x).halted = s.halted := rfl
@[simp] theorem State.withMfault_fatalCode (s : State) (x : Bool) : (s.withMfault x).fatalCode = s.fatalCode := rfl
@[simp] theorem State.withMfault_glitch (s : State) (x : Bool) : (s.withMfault x).glitch = s.glitch := rfl
@[simp] theorem State.withMfault_mfault (s : State) (x : Bool) : (s.withMfault x).mfault = x := rfl
@[simp] theorem State.withMfault_env (s : State) (x : Bool) : (s.withMfault x).env = s.env := rfl

@[simp] theorem State.withEnv_mod (s : State) (x : Env) : (s.withEnv x).mod = s.mod := rfl
@[simp] theorem State.withEnv_xpt (s : State) (x : Env) : (s.withEnv x).xpt = s.xpt := rfl
@[simp] theorem State.withEnv_session (s : State) (x : Env) : (s.withEnv x).session = s.session := rfl
@[simp] theorem State.withEnv_ioseq (s : State) (x : Env) : (s.withEnv x).ioseq = s.ioseq := rfl
@[simp] theorem State.withEnv_str (s : State) (x : Env) : (s.withEnv x).str = s.str := rfl
@[simp] theorem State.withEnv_bufs (s : State) (x : Env) : (s.withEnv x).bufs = s.bufs := rfl
@[simp] theorem State.withEnv_arg (s : State) (x : Env) : (s.withEnv x).arg = s.arg := rfl
@[simp] theorem State.withEnv_err (s : State) (x : Env) : (s.withEnv x).err = s.err := rfl
@[simp] theorem State.withEnv_halted (s : State) (x : Env) : (s.withEnv x).halted = s.halted := rfl
@[simp] theorem State.withEnv_fatalCode (s : State) (x : Env) : (s.withEnv x).fatalCode = s.fatalCode := rfl
@[simp] theorem State.withEnv_glitch (s : State) (x : Env) : (s.withEnv x).glitch = s.glitch := rfl
@[simp] theorem State.withEnv_mfault (s : State) (x : Env) : (s.withEnv x).mfault = s.mfault := rfl
@[simp] theorem State.withEnv_env (s : State) (x : Env) : (s.withEnv x).env = x := rfl

@[simp] theorem State.goto_mod (s : State) (p : IoPos) : (s.goto p).mod = s.mod := rfl
@[simp] theorem State.goto_xpt (s : State) (p : IoPos) : (s.goto p).xpt = s.xpt := rfl
@[simp] theorem State.goto_session (s : State) (p : IoPos) : (s.goto p).session = s.session := rfl
@[simp] theorem State.goto_ioseq (s : State) (p : IoPos) : (s.goto p).ioseq = { s.ioseq with pos := p } := rfl
@[simp] theorem State.goto_str (s : State) (p : IoPos) : (s.goto p).str = s.str := rfl
@[simp] theorem State.goto_bufs (s : State) (p : IoPos) : (s.goto p).bufs = s.bufs := rfl
@[simp] theorem State.goto_arg (s : State) (p : IoPos) : (s.goto p).arg = s.arg := rfl
@[simp] theorem State.goto_err (s : State) (p : IoPos) : (s.goto p).err = s.err := rfl
@[simp] theorem State.goto_halted (s : State) (p : IoPos) : (s.goto p).halted = s.halted := rfl
@[simp] theorem State.goto_fatalCode (s : State) (p : IoPos) : (s.goto p).fatalCode = s.fatalCode := rfl
@[simp] theorem State.goto_glitch (s : State) (p : IoPos) : (s.goto p).glitch = s.glitch := rfl
@[simp] theorem State.goto_mfault (s : State) (p : IoPos) : (s.goto p).mfault = s.mfault := rfl
@[simp] theorem State.goto_env (s : State) (p : IoPos) : (s.goto p).env = s.env := rfl

@[simp] theorem State.finishIo_mod (s : State) : s.finishIo.mod = s.mod := rfl
@[simp] theorem State.finishIo_xpt (s : State) : s.finishIo.xpt = s.xpt := rfl
@[simp] theorem State.finishIo_session (s : State) : s.finishIo.session = s.session := rfl
@[simp] theorem State.finishIo_ioseq (s : State) : s.finishIo.ioseq = { s.ioseq with busy := false, pos := .idle } := rfl
@[simp] theorem State.finishIo_str (s : State) : s.finishIo.str = s.str := rfl
@[simp] theorem State.finishIo_bufs (s : State) : s.finishIo.bufs = s.bufs := rfl
@[simp] theorem State.finishIo_arg (s : State) : s.finishIo.arg = s.arg := rfl
@[simp] theorem State.finishIo_err (s : State) : s.finishIo.err = s.err := rfl
@[simp] theorem State.finishIo_halted (s : State) : s.finishIo.halted = s.halted := rfl
@[simp] theorem State.finishIo_fatalCode (s : State) : s.finishIo.fatalCode = s.fatalCode := rfl
@[simp] theorem State.finishIo_glitch (s : State) : s.finishIo.glitch = s.glitch := rfl
@[simp] theorem State.finishIo_mfault (s : State) : s.finishIo.mfault = s.mfault := rfl
@[simp] theorem State.finishIo_env (s : State) : s.finishIo.env = s.env := rfl

@[simp] theorem State.startIo_mod (s : State) (p : IoPos) : (s.startIo p).mod = s.mod := rfl
@[simp] theorem State.startIo_xpt (s : State) (p : IoPos) : (s.startIo p).xpt = s.xpt := rfl
@[simp] theorem State.startIo_session (s : State) (p : IoPos) : (s.startIo p).session = s.session := rfl
@[simp] theorem State.startIo_ioseq (s : State) (p : IoPos) : (s.startIo p).ioseq = { s.ioseq with busy := true, pos := p } := rfl
@[simp] theorem State.startIo_str (s : State) (p : IoPos) : (s.startIo p).str = s.str := rfl
@[simp] theorem State.startIo_bufs (s : State) (p : IoPos) : (s.startIo p).bufs = s.bufs := rfl
@[simp] theorem State.startIo_arg (s : State) (p : IoPos) : (s.startIo p).arg = s.arg := rfl
@[simp] theorem State.startIo_err (s : State) (p : IoPos) : (s.startIo p).err = s.err := rfl
@[simp] theorem State.startIo_halted (s : State) (p : IoPos) : (s.startIo p).halted = s.halted := rfl
@[simp] theorem State.startIo_fatalCode (s : State) (p : IoPos) : (s.startIo p).fatalCode = s.fatalCode := rfl
@[simp] theorem State.startIo_glitch (s : State) (p : IoPos) : (s.startIo p).glitch = s.glitch := rfl
@[simp] theorem State.startIo_mfault (s : State) (p : IoPos) : (s.startIo p).mfault = s.mfault := rfl
@[simp] theorem State.startIo_env (s : State) (p : IoPos) : (s.startIo p).env = s.env := rfl

@[simp] theorem State.writeCell_mod (s : State) (a : Nat) (b : Byte) : (s.writeCell a b).mod = s.mod := rfl
@[simp] theorem State.writeCell_xpt (s : State) (a : Nat) (b : Byte) : (s.writeCell a b).xpt = s.xpt := rfl
@[simp] theorem State.writeCell_session (s : State) (a : Nat) (b : Byte) : (s.writeCell a b).session = s.session := rfl
@[simp] theorem State.writeCell_ioseq (s : State) (a : Nat) (b : Byte) : (s.writeCell a b).ioseq = s.ioseq := rfl
@[simp] theorem State.writeCell_str (s : State) (a : Nat) (b : Byte) : (s.writeCell a b).str = s.str := rfl
@[simp] theorem State.writeCell_bufs (s : State) (a : Nat) (b : Byte) : (s.writeCell a b).bufs = Memory.write s.bufs a b := rfl
@[simp] theorem State.writeCell_arg (s : State) (a : Nat) (b : Byte) : (s.writeCell a b).arg = s.arg := rfl
@[simp] theorem State.writeCell_err (s : State) (a : Nat) (b : Byte) : (s.writeCell a b).err = s.err := rfl
@[simp] theorem State.writeCell_halted (s : State) (a : Nat) (b : Byte) : (s.writeCell a b).halted = s.halted := rfl
@[simp] theorem State.writeCell_fatalCode (s : State) (a : Nat) (b : Byte) : (s.writeCell a b).fatalCode = s.fatalCode := rfl
@[simp] theorem State.writeCell_glitch (s : State) (a : Nat) (b : Byte) : (s.writeCell a b).glitch = s.glitch := rfl
@[simp] theorem State.writeCell_mfault (s : State) (a : Nat) (b : Byte) : (s.writeCell a b).mfault = s.mfault := rfl
@[simp] theorem State.writeCell_env (s : State) (a : Nat) (b : Byte) : (s.writeCell a b).env = s.env := rfl

@[simp] theorem State.takeTurn_mod (s : State) : s.takeTurn.mod = s.mod := rfl
@[simp] theorem State.takeTurn_xpt (s : State) : s.takeTurn.xpt = s.xpt := rfl
@[simp] theorem State.takeTurn_session (s : State) : s.takeTurn.session = s.session := rfl
@[simp] theorem State.takeTurn_ioseq (s : State) : s.takeTurn.ioseq = s.ioseq := rfl
@[simp] theorem State.takeTurn_str (s : State) : s.takeTurn.str = s.str := rfl
@[simp] theorem State.takeTurn_bufs (s : State) : s.takeTurn.bufs = s.bufs := rfl
@[simp] theorem State.takeTurn_arg (s : State) : s.takeTurn.arg = s.arg := rfl
@[simp] theorem State.takeTurn_err (s : State) : s.takeTurn.err = s.err := rfl
@[simp] theorem State.takeTurn_halted (s : State) : s.takeTurn.halted = s.halted := rfl
@[simp] theorem State.takeTurn_fatalCode (s : State) : s.takeTurn.fatalCode = s.fatalCode := rfl
@[simp] theorem State.takeTurn_glitch (s : State) : s.takeTurn.glitch = s.glitch := rfl
@[simp] theorem State.takeTurn_mfault (s : State) : s.takeTurn.mfault = s.mfault := rfl
@[simp] theorem State.takeTurn_env (s : State) : s.takeTurn.env = { s.env with turns := s.env.turns.tail, tick := s.env.tick + 1, outValid := false } := rfl

@[simp] theorem raiseFatal_mod (c : FatalCode) (s : State) : (raiseFatal c s).mod = { s.mod with busy := false, kind := .none } := rfl
@[simp] theorem raiseFatal_xpt (c : FatalCode) (s : State) : (raiseFatal c s).xpt = s.xpt := rfl
@[simp] theorem raiseFatal_session (c : FatalCode) (s : State) : (raiseFatal c s).session = s.session := rfl
@[simp] theorem raiseFatal_ioseq (c : FatalCode) (s : State) : (raiseFatal c s).ioseq = { s.ioseq with busy := false, pos := .idle } := rfl
@[simp] theorem raiseFatal_str (c : FatalCode) (s : State) : (raiseFatal c s).str = { s.str with irqEn := false } := rfl
@[simp] theorem raiseFatal_bufs (c : FatalCode) (s : State) : (raiseFatal c s).bufs = s.bufs := rfl
@[simp] theorem raiseFatal_arg (c : FatalCode) (s : State) : (raiseFatal c s).arg = s.arg := rfl
@[simp] theorem raiseFatal_err (c : FatalCode) (s : State) : (raiseFatal c s).err = s.err := rfl
@[simp] theorem raiseFatal_halted (c : FatalCode) (s : State) : (raiseFatal c s).halted = true := rfl
@[simp] theorem raiseFatal_fatalCode (c : FatalCode) (s : State) : (raiseFatal c s).fatalCode = c := rfl
@[simp] theorem raiseFatal_glitch (c : FatalCode) (s : State) : (raiseFatal c s).glitch = s.glitch := rfl
@[simp] theorem raiseFatal_mfault (c : FatalCode) (s : State) : (raiseFatal c s).mfault = s.mfault := rfl
@[simp] theorem raiseFatal_env (c : FatalCode) (s : State) : (raiseFatal c s).env = s.env := rfl

@[simp] theorem accessError_mod (s : State) : (accessError s).mod = s.mod := rfl
@[simp] theorem accessError_xpt (s : State) : (accessError s).xpt = s.xpt := rfl
@[simp] theorem accessError_session (s : State) : (accessError s).session = s.session := rfl
@[simp] theorem accessError_ioseq (s : State) : (accessError s).ioseq = s.ioseq := rfl
@[simp] theorem accessError_str (s : State) : (accessError s).str = s.str := rfl
@[simp] theorem accessError_bufs (s : State) : (accessError s).bufs = s.bufs := rfl
@[simp] theorem accessError_arg (s : State) : (accessError s).arg = s.arg := rfl
@[simp] theorem accessError_err (s : State) : (accessError s).err = .access := rfl
@[simp] theorem accessError_halted (s : State) : (accessError s).halted = s.halted := rfl
@[simp] theorem accessError_fatalCode (s : State) : (accessError s).fatalCode = s.fatalCode := rfl
@[simp] theorem accessError_glitch (s : State) : (accessError s).glitch = s.glitch := rfl
@[simp] theorem accessError_mfault (s : State) : (accessError s).mfault = s.mfault := rfl
@[simp] theorem accessError_env (s : State) : (accessError s).env = s.env := rfl

@[simp] theorem resetEvent_mod (s : State) : (resetEvent s).mod = State.reset.mod := rfl
@[simp] theorem resetEvent_xpt (s : State) : (resetEvent s).xpt = State.reset.xpt := rfl
@[simp] theorem resetEvent_session (s : State) : (resetEvent s).session = State.reset.session := rfl
@[simp] theorem resetEvent_ioseq (s : State) : (resetEvent s).ioseq = State.reset.ioseq := rfl
@[simp] theorem resetEvent_str (s : State) : (resetEvent s).str = State.reset.str := rfl
@[simp] theorem resetEvent_bufs (s : State) : (resetEvent s).bufs = State.reset.bufs := rfl
@[simp] theorem resetEvent_arg (s : State) : (resetEvent s).arg = State.reset.arg := rfl
@[simp] theorem resetEvent_err (s : State) : (resetEvent s).err = State.reset.err := rfl
@[simp] theorem resetEvent_halted (s : State) : (resetEvent s).halted = State.reset.halted := rfl
@[simp] theorem resetEvent_fatalCode (s : State) : (resetEvent s).fatalCode = State.reset.fatalCode := rfl
@[simp] theorem resetEvent_glitch (s : State) : (resetEvent s).glitch = State.reset.glitch := rfl
@[simp] theorem resetEvent_mfault (s : State) : (resetEvent s).mfault = s.mfault := rfl
@[simp] theorem resetEvent_env (s : State) : (resetEvent s).env = { s.env with rstN := true } := rfl

end Sys2Proof.Machine
end

