-- ==== Sys2Proof/Laws/Commands.lean ====
section
/-! SUPPORT. Accepting and refusing a command (30_encoding.md R114): what `verdict` and `issue` can do, and
every instruction as one `issue`. -/

namespace Sys2Proof.Machine

/-- A command is accepted exactly when no check of R114 fails. -/
theorem verdict_eq_ok (u : CmdUnit) (pre argOk : Bool) (s : State) :
    verdict u pre argOk s = .ok ↔
      s.halted = false ∧ unitBusy u s = false ∧ ¬ (u = .io ∧ s.str.state = .stopped) ∧ pre = true ∧
        argOk = true := by
  unfold verdict
  repeat' split
  all_goals simp_all

/-- An accepted command performs its accept action after `ERR <- 0`. -/
theorem issue_of_ok {u : CmdUnit} {pre argOk : Bool} {act : State → State} {s : State}
    (h : verdict u pre argOk s = .ok) : issue u pre argOk act s = act (s.withErr .ok) := by
  simp [issue, h]

/-- A refused command writes only ERR. -/
theorem issue_of_refused {u : CmdUnit} {pre argOk : Bool} {act : State → State} {s : State}
    (h : verdict u pre argOk s ≠ .ok) : issue u pre argOk act s = s.withErr (verdict u pre argOk s) := by
  simp [issue, h]

/-- Everything `issue` can do. -/
theorem issue_cases (u : CmdUnit) (pre argOk : Bool) (act : State → State) (s : State) :
    (verdict u pre argOk s = .ok ∧ issue u pre argOk act s = act (s.withErr .ok)) ∨
      (∃ e, e ≠ .ok ∧ e = verdict u pre argOk s ∧ issue u pre argOk act s = s.withErr e) := by
  by_cases h : verdict u pre argOk s = .ok
  · exact .inl ⟨h, issue_of_ok h⟩
  · exact .inr ⟨_, h, rfl, issue_of_refused h⟩

/-- A MOD command is accepted in a state that is not halted and whose MOD is not busy. -/
theorem issue_mod {pre argOk : Bool} {act : State → State} {s : State} (hh : s.halted = false)
    (hb : s.mod.busy = false) (hp : pre = true) (ha : argOk = true) :
    issue .mod pre argOk act s = act (s.withErr .ok) :=
  issue_of_ok ((verdict_eq_ok _ _ _ _).2 ⟨hh, hb, by simp, hp, ha⟩)

/-- An IO command is accepted in a state that is not halted, not busy and not stopped. -/
theorem issue_io {pre argOk : Bool} {act : State → State} {s : State} (hh : s.halted = false)
    (hb : s.ioseq.busy = false) (hs : s.str.state ≠ .stopped) (hp : pre = true) (ha : argOk = true) :
    issue .io pre argOk act s = act (s.withErr .ok) :=
  issue_of_ok ((verdict_eq_ok _ _ _ _).2 ⟨hh, hb, by simp [hs], hp, ha⟩)

/-- The state precondition of each command (its rule's line "State precondition"). -/
def preOf (i : Instr) (s : State) : Bool :=
  match i with
  | .modInit _ _ => true
  | .modPrime => s.mod.phase == .configured
  | .modSample _ => s.mod.phase == .primed
  | .modStep _ _ => configuredOrPrimed s
  | .modEnd => configuredOrPrimed s
  | .xptCs _ => true
  | .xptXfer _ => true
  | .bscInit => !sessionReady s
  | .bscRead _ => sessionReady s
  | .bscWrite _ => sessionReady s
  | .strCfg => streamIdle s
  | .strStart => sessionReady s && streamIdle s

/-- The argument check of each command. -/
def argOf (i : Instr) (s : State) : Bool :=
  match i with
  | .modInit r _ => decide (1 ≤ r)
  | .strStart => decide (3 ≤ s.str.max.toNat)
  | .modPrime => true
  | .modSample _ => true
  | .modStep _ _ => true
  | .modEnd => true
  | .xptCs _ => true
  | .xptXfer _ => true
  | .bscInit => true
  | .bscRead _ => true
  | .bscWrite _ => true
  | .strCfg => true

/-- The accept action of each command, `s` being the state in which it is checked. -/
def actOf (i : Instr) (s : State) : State → State :=
  match i with
  | .modInit r ssel => acceptModInit r ssel
  | .modPrime => startMod .prime (primeSteps s.mod) 0 false
  | .modSample smp => startMod .sample (sampleSteps s.mod) (BitVec.ofInt 16 smp) true
  | .modStep smp e => startMod .step 1 (BitVec.ofInt 16 smp) e
  | .modEnd => acceptModEnd
  | .xptCs c => setCs c
  | .xptXfer t => acceptXptXfer t
  | .bscInit => acceptBscInit
  | .bscRead d => acceptBscRead d
  | .bscWrite d => acceptBscWrite d
  | .strCfg => acceptStrCfg
  | .strStart => acceptStrStart

/-- Every command is one `issue` of its precondition, argument check and accept action. -/
theorem exec_eq_issue (i : Instr) (s : State) :
    exec i s = .next (issue i.unit (preOf i s) (argOf i s) (actOf i s) s) := by
  cases i <;> rfl

/-- Everything `exec` can do: it answers a next state, and either the command was accepted and its action is
performed, or only ERR is written, with a code other than OK. -/
theorem exec_cases (i : Instr) (s : State) :
    (verdict i.unit (preOf i s) (argOf i s) s = .ok ∧ exec i s = .next (actOf i s (s.withErr .ok))) ∨
      (∃ e, e ≠ .ok ∧ exec i s = .next (s.withErr e)) := by
  rw [exec_eq_issue]
  rcases issue_cases i.unit (preOf i s) (argOf i s) (actOf i s) s with ⟨h, e⟩ | ⟨e, he, _, h⟩
  · exact .inl ⟨h, by rw [e]⟩
  · exact .inr ⟨e, he, by rw [h]⟩

/-- Everything `exec` can do, from a next state it answered. -/
theorem exec_inv {i : Instr} {s t : State} (h : exec i s = .next t) :
    (verdict i.unit (preOf i s) (argOf i s) s = .ok ∧ t = actOf i s (s.withErr .ok)) ∨
      (∃ e, e ≠ .ok ∧ t = s.withErr e) := by
  rcases exec_cases i s with ⟨hv, e⟩ | ⟨e, he, ht⟩
  · rw [e] at h; cases h; exact .inl ⟨hv, rfl⟩
  · rw [ht] at h; cases h; exact .inr ⟨e, he, rfl⟩

end Sys2Proof.Machine
end

