-- ==== Sys2Proof/Laws/Encoding.lean ====
section
/-! SUPPORT. The fields of a command word built by `mkWord` (30_encoding.md R110, R111). -/

namespace Sys2Proof

/-- The bits of a word, by its fields (R110). -/
theorem mkWord_getLsbD (imm : BitVec 16) (f8 op : Byte) (i : Nat) :
    (mkWord imm f8 op).getLsbD i =
      if i < 8 then op.getLsbD i else if i - 8 < 8 then f8.getLsbD (i - 8) else imm.getLsbD (i - 8 - 8) := by
  show (imm ++ f8 ++ op : BitVec (16 + 8 + 8)).getLsbD i = _
  rw [BitVec.getLsbD_append, BitVec.getLsbD_append]

@[simp] theorem wordOp_mkWord (imm : BitVec 16) (f8 op : Byte) : wordOp (mkWord imm f8 op) = op := by
  refine BitVec.eq_of_getLsbD_eq fun i hi => ?_
  rw [wordOp, BitVec.getLsbD_extractLsb', mkWord_getLsbD]
  simp [hi]

@[simp] theorem wordF8_mkWord (imm : BitVec 16) (f8 op : Byte) : wordF8 (mkWord imm f8 op) = f8 := by
  refine BitVec.eq_of_getLsbD_eq fun i hi => ?_
  rw [wordF8, BitVec.getLsbD_extractLsb', mkWord_getLsbD]
  simp [hi]

@[simp] theorem wordImm16_mkWord (imm : BitVec 16) (f8 op : Byte) : wordImm16 (mkWord imm f8 op) = imm := by
  refine BitVec.eq_of_getLsbD_eq fun i hi => ?_
  rw [wordImm16, BitVec.getLsbD_extractLsb', mkWord_getLsbD]
  have h1 : ¬ 16 + i < 8 := by omega
  have h2 : ¬ 16 + i - 8 < 8 := by omega
  have h3 : 16 + i - 8 - 8 = i := by omega
  simp [hi, h1, h2, h3]

/-- A word is its three fields. -/
theorem mkWord_fields (w : Word) : mkWord (wordImm16 w) (wordF8 w) (wordOp w) = w := by
  refine BitVec.eq_of_getLsbD_eq fun i hi => ?_
  rw [mkWord_getLsbD, wordOp, wordF8, wordImm16, BitVec.getLsbD_extractLsb', BitVec.getLsbD_extractLsb',
    BitVec.getLsbD_extractLsb']
  split
  · next h => simp [h]
  · split
    · next h h2 =>
      have e : 8 + (i - 8) = i := by omega
      simp [h2, e]
    · next h h2 =>
      have e : 16 + (i - 8 - 8) = i := by omega
      have h3 : i - 8 - 8 < 16 := by omega
      simp [h3, e]

/-- Masking a word masks its fields. -/
theorem mkWord_and (imm mi : BitVec 16) (f8 mf op mo : Byte) :
    mkWord imm f8 op &&& mkWord mi mf mo = mkWord (imm &&& mi) (f8 &&& mf) (op &&& mo) := by
  refine BitVec.eq_of_getLsbD_eq fun i hi => ?_
  simp only [BitVec.getLsbD_and, mkWord_getLsbD]
  split
  · rfl
  · split <;> rfl

/-- Two words are equal exactly when their fields are. -/
theorem mkWord_inj (imm imm' : BitVec 16) (f8 f8' op op' : Byte) :
    mkWord imm f8 op = mkWord imm' f8' op' ↔ imm = imm' ∧ f8 = f8' ∧ op = op' := by
  refine ⟨fun h => ⟨?_, ?_, ?_⟩, fun ⟨h1, h2, h3⟩ => by rw [h1, h2, h3]⟩
  · simpa using congrArg wordImm16 h
  · simpa using congrArg wordF8 h
  · simpa using congrArg wordOp h

@[simp] theorem flagField_flagByte (b : Bool) : flagField (flagByte b) = some b := by
  cases b <;> rfl

@[simp] theorem bufOfFlag_flagOfBuf (d : BufIdx) : bufOfFlag (flagOfBuf d) = d := by
  fin_cases d <;> rfl

end Sys2Proof
end

