-- ==== Sys2Proof/Laws/Hosted.lean ====
section
/-! SUPPORT. A block with a host program, and the ends of a run (30_encoding.md R118, 70_reset_and_hazards.md R332,
60_exceptions.md R280). -/

namespace Sys2Proof.Machine

/-! ## Host programs -/

/-- Everything a step beside a program can do to the block: HOST's turn passes or the step is the machine's, and the
program stands where it stood; or it is the machine's with the access of the program's next line, and then what it read decides how the program goes on. -/
theorem Hosted.step_next {h h' : Hosted} (hs : h.step = .next h') :
    (h'.run = h.run ∧ (h'.machine = h.machine.takeTurn ∨ Machine.step h.machine = .next h'.machine)) ∨
      ∃ l rest, h.run = .running (l :: rest) ∧ Machine.step (placeLine l h.machine) = .next h'.machine ∧
        h'.run = l.after rest h'.machine.env.rdata := by
  have key : ∀ (o : Host.Outcome State Fault Refusal) (f : State → HostRun),
      Hosted.leave o f = .next h' → o = .next h'.machine ∧ h'.run = f h'.machine := by
    intro o f ho
    cases o <;> simp only [Hosted.leave, Host.Outcome.next.injEq, reduceCtorEq] at ho
    subst ho
    exact ⟨rfl, rfl⟩
  unfold Hosted.step at hs
  split at hs
  · next l rest _ hr =>
    split at hs
    · obtain ⟨h1, h2⟩ := key _ _ hs
      exact .inr ⟨l, rest, hr, h1, h2⟩
    · simp only [Host.Outcome.next.injEq] at hs
      exact .inl (by rw [← hs]; exact ⟨rfl, .inl rfl⟩)
  · simp only [Host.Outcome.next.injEq] at hs
    exact .inl (by rw [← hs]; exact ⟨rfl, .inl rfl⟩)
  · obtain ⟨h1, h2⟩ := key _ _ hs
    exact .inl ⟨h2, .inr h1⟩

/-- A line that is done hands on to the lines after it. -/
theorem HostLine.after_done {l : HostLine} {x : Word} (rest : List HostLine) (h : l.done x = true) :
    l.after rest x = .running rest := if_pos h

/-- A poll that is not done reads again (R118). -/
theorem HostLine.after_poll {off : Offset} {m v x : Word} (rest : List HostLine) (h : x &&& m ≠ v) :
    (HostLine.poll off m v).after rest x = .running (.poll off m v :: rest) := by
  simp [HostLine.after, HostLine.done, HostLine.stops, HostLine.repetition, h]

/-! ## Ends of a run -/

/-- A state with MFAULT set is never final (R280). -/
theorem EndState.final_not_faulted {e : EndState} {s : State} (h : e.holds s) (hf : e.final = true) :
    s.mfault = false := by
  cases e <;> simp_all [EndState.holds, EndState.final]

/-- Where no agent has a step, some row of R332's table holds. -/
theorem noAgentSteps_ends {s : State} (hi : ioBusyWhileRunning s) (h : noAgentSteps s) :
    ∃ e : EndState, e.holds s := by
  obtain ⟨hm, ho, hd⟩ := h
  rcases hf : s.mfault with _ | _
  · rcases hh : s.halted with _ | _
    · rcases hb : s.mod.busy with _ | _
      · rcases hio : s.ioseq.busy with _ | _
        · by_cases he : encodeEnd s
          · exact ⟨.encodeDone, he, hf⟩
          · by_cases hs : streamEnd s
            · exact ⟨.streamDone, hs, hf⟩
            · exact ⟨.idle, ⟨hb, hio, hh⟩, he, hs, hf⟩
        · have hp := hi.1 hio
          refine ⟨.stuck, .inl ?_⟩
          simp only [ioEnabled, hh] at ho
          by_cases h1 : s.ioseq.pos = .l1 <;> simp_all
      · refine ⟨.stuck, .inr ⟨hb, hh, ?_⟩⟩
        simpa [modEnabled, hb, hh] using hm
    · exact ⟨.halted, hh, hf⟩
  · exact ⟨.faulted, hf⟩

end Sys2Proof.Machine
end

