-- ==== Sys2Proof/Laws/Memory.lean ====
section
/-! SUPPORT. The buffer memory: a read after a write, and the canonical form (20_memory.md R83, R92). -/

namespace Sys2Proof.Machine

/-- A cell just written reads as the byte written. -/
@[simp] theorem Memory.read_write_same (m : Memory) (a : Nat) (b : Byte) :
    Memory.read (Memory.write m a b) a = some b := by
  induction m with
  | nil => simp [Memory.write, Memory.read]
  | cons c m ih =>
    obtain ⟨k, v⟩ := c
    simp only [Memory.write]
    split
    · simp [Memory.read]
    · split
      · simp [Memory.read]
      · next h => simp [Memory.read, ih, Ne.symm h]

/-- A write leaves every other cell alone. -/
theorem Memory.read_write_other (m : Memory) (a a' : Nat) (b : Byte) (h : a' ≠ a) :
    Memory.read (Memory.write m a b) a' = Memory.read m a' := by
  induction m with
  | nil => simp [Memory.write, Memory.read, Ne.symm h]
  | cons c m ih =>
    obtain ⟨k, v⟩ := c
    simp only [Memory.write]
    split
    · simp [Memory.read, Ne.symm h]
    · split
      · next hk => subst hk; simp [Memory.read, Ne.symm h]
      · simp [Memory.read, ih]

/-- The cells of a list after a write are the written one and cells that were there. -/
theorem Memory.mem_write (m : Memory) (a : Nat) (b : Byte) (c : Host.Cell) (h : c ∈ Memory.write m a b) :
    c = (a, b) ∨ c ∈ m := by
  induction m with
  | nil => simpa [Memory.write] using h
  | cons x m ih =>
    obtain ⟨k, v⟩ := x
    simp only [Memory.write] at h
    split at h
    · simpa using h
    · split at h
      · simp only [List.mem_cons] at h ⊢; tauto
      · simp only [List.mem_cons] at h ⊢
        rcases h with h | h
        · exact .inr (.inl h)
        · rcases ih h with h | h
          · exact .inl h
          · exact .inr (.inr h)

/-- A write into the buffer window keeps the canonical form. -/
theorem Memory.wf_write (m : Memory) (a : Nat) (b : Byte) (hm : Memory.wf m) (ha : 0x800 ≤ a ∧ a < 0xC00) :
    Memory.wf (Memory.write m a b) := by
  refine ⟨?_, fun c hc => ?_⟩
  · have hp := hm.1
    clear hm
    induction m with
    | nil => simp [Memory.write]
    | cons x m ih =>
      obtain ⟨k, v⟩ := x
      rw [List.pairwise_cons] at hp
      simp only [Memory.write]
      split
      · next hk =>
        refine List.pairwise_cons.2 ⟨fun c hc => ?_, List.pairwise_cons.2 hp⟩
        rcases List.mem_cons.1 hc with rfl | hc
        · exact hk
        · exact Nat.lt_trans hk (hp.1 c hc)
      · split
        · next hk => subst hk; exact List.pairwise_cons.2 ⟨fun c hc => hp.1 c hc, hp.2⟩
        · refine List.pairwise_cons.2 ⟨fun c hc => ?_, ih hp.2⟩
          rcases Memory.mem_write m a b c hc with rfl | hc
          · simp only; omega
          · exact hp.1 c hc
  · rcases Memory.mem_write m a b c hc with rfl | hc
    · exact ha
    · exact hm.2 c hc

/-- The memory at reset is in canonical form. -/
theorem Memory.wf_reset : Memory.wf State.reset.bufs := by decide

/-- The address of a buffer cell lies in the window (20_memory.md R86). -/
theorem cellAddr_in_window (d : BufIdx) (i : SectorIdx) : 0x800 ≤ cellAddr d i ∧ cellAddr d i < 0xC00 := by
  unfold cellAddr; omega

/-- Different bytes of the buffers have different addresses. -/
theorem cellAddr_inj (d d' : BufIdx) (i i' : SectorIdx) (h : cellAddr d i = cellAddr d' i') : d = d' ∧ i = i' := by
  unfold cellAddr at h
  exact ⟨Fin.ext (by omega), Fin.ext (by omega)⟩

/-- The two buffers are different (10_state.md R53). -/
@[simp] theorem otherBuf_ne (d : BufIdx) : otherBuf d ≠ d := by
  fin_cases d <;> decide

/-- Swapping twice gives the first buffer again. -/
@[simp] theorem otherBuf_otherBuf (d : BufIdx) : otherBuf (otherBuf d) = d := by
  fin_cases d <;> rfl

end Sys2Proof.Machine
end

