-- ==== Sys2Proof/Laws/Modulator.lean ====
section
/-! SUPPORT. MOD's step: what it leaves of MOD and what it computes (40_modulator.md R146 to R151). -/

namespace Sys2Proof.Machine

/-! ## The packer -/

/-- The packer touches only PACK, NBITS and MQ (R149). -/
theorem packBit_frame (m : Mod) (bit : Bool) :
    (m.packBit bit).a = m.a ∧ (m.packBit bit).b = m.b ∧ (m.packBit bit).r = m.r ∧
      (m.packBit bit).ssel = m.ssel ∧ (m.packBit bit).phase = m.phase ∧ (m.packBit bit).busy = m.busy ∧
      (m.packBit bit).kind = m.kind ∧ (m.packBit bit).remain = m.remain ∧ (m.packBit bit).curS = m.curS ∧
      (m.packBit bit).curE = m.curE ∧ (m.packBit bit).ovf = m.ovf := by
  by_cases h : m.nbits = 7 <;> simp [Mod.packBit, h]

/-- The packer's queue: the same, or one byte longer when the eighth bit came (R149). -/
theorem packBit_mq (m : Mod) (bit : Bool) :
    (m.packBit bit).mq = m.mq ∨ (m.nbits = 7 ∧ ∃ b, (m.packBit bit).mq = m.mq ++ [b]) := by
  by_cases h : m.nbits = 7
  · exact .inr ⟨h, (m.pack <<< 1) ||| (if bit then 1 else 0), by simp only [Mod.packBit, h, if_true]⟩
  · exact .inl (by simp only [Mod.packBit, h, if_false])

/-! ## The internal step -/

/-- An internal step leaves the configuration and the command in progress alone (R146). -/
theorem internalStep_frame (pol : Polarity) (smp : Int) (e : Bool) (m : Mod) :
    (m.internalStep pol smp e).r = m.r ∧ (m.internalStep pol smp e).ssel = m.ssel ∧
      (m.internalStep pol smp e).phase = m.phase ∧ (m.internalStep pol smp e).busy = m.busy ∧
      (m.internalStep pol smp e).kind = m.kind ∧ (m.internalStep pol smp e).remain = m.remain ∧
      (m.internalStep pol smp e).curS = m.curS ∧ (m.internalStep pol smp e).curE = m.curE := by
  cases e with
  | false => simp [Mod.internalStep]
  | true => simp [Mod.internalStep, packBit_frame]

/-- The accumulators and OVF after an internal step, with or without emission (R146, R148). -/
theorem internalStep_acc (pol : Polarity) (smp : Int) (e : Bool) (m : Mod) :
    (m.internalStep pol smp e).a = (accStep pol m.a m.b smp).a ∧
      (m.internalStep pol smp e).b = (accStep pol m.a m.b smp).b ∧
      (m.internalStep pol smp e).ovf = (m.ovf || (accStep pol m.a m.b smp).overflow) := by
  cases e with
  | false => simp [Mod.internalStep]
  | true => simp [Mod.internalStep, packBit_frame]

/-- Without emission the packer is left alone (R146). -/
theorem internalStep_silent (pol : Polarity) (smp : Int) (m : Mod) :
    (m.internalStep pol smp false).pack = m.pack ∧ (m.internalStep pol smp false).nbits = m.nbits ∧
      (m.internalStep pol smp false).mq = m.mq := by
  simp [Mod.internalStep]

/-- The queue after an internal step: the same, or one byte longer, and then the step emits its eighth bit. -/
theorem internalStep_mq (pol : Polarity) (smp : Int) (e : Bool) (m : Mod) :
    (m.internalStep pol smp e).mq = m.mq ∨
      (e = true ∧ m.nbits = 7 ∧ ∃ b, (m.internalStep pol smp e).mq = m.mq ++ [b]) := by
  cases e with
  | false => exact .inl (internalStep_silent pol smp m).2.2
  | true =>
    unfold Mod.internalStep
    rw [if_pos rfl]
    rcases packBit_mq { m with a := (accStep pol m.a m.b smp).a, b := (accStep pol m.a m.b smp).b,
                               ovf := m.ovf || (accStep pol m.a m.b smp).overflow }
        (accStep pol m.a m.b smp).bit with h | ⟨h, b, hb⟩
    · exact .inl h
    · exact .inr ⟨rfl, h, b, hb⟩

/-! ## The agent's step -/

/-- Everything the MOD agent's step can do: the internal step, one step fewer left, and the command ends exactly
when none is left (R151). -/
theorem advance_cases (pol : Polarity) (m : Mod) :
    (m.remain - 1 ≠ 0 ∧
      m.advance pol = { m.internalStep pol m.curS.toInt m.curE with remain := m.remain - 1 }) ∨
    (m.remain - 1 = 0 ∧
      m.advance pol =
        { m.internalStep pol m.curS.toInt m.curE with
          remain := 0, busy := false, kind := .none,
          phase := if m.kind = .prime then .primed else m.phase }) := by
  have h := internalStep_frame pol m.curS.toInt m.curE m
  unfold Mod.advance
  dsimp only
  rw [h.2.2.2.2.2.1]
  by_cases hr : m.remain - 1 = 0
  · exact .inr ⟨hr, by rw [if_pos hr, Mod.finish, hr, h.2.2.1, h.2.2.2.2.1]⟩
  · exact .inl ⟨hr, by rw [if_neg hr]⟩

/-- The agent's step keeps what the command fixed at its acceptance (R151). -/
theorem advance_frame (pol : Polarity) (m : Mod) :
    (m.advance pol).r = m.r ∧ (m.advance pol).ssel = m.ssel ∧ (m.advance pol).curS = m.curS ∧
      (m.advance pol).curE = m.curE ∧ (m.advance pol).remain = m.remain - 1 := by
  have h := internalStep_frame pol m.curS.toInt m.curE m
  rcases advance_cases pol m with ⟨hr, e⟩ | ⟨hr, e⟩ <;> rw [e]
  · exact ⟨h.1, h.2.1, h.2.2.2.2.2.2.1, h.2.2.2.2.2.2.2, rfl⟩
  · exact ⟨h.1, h.2.1, h.2.2.2.2.2.2.1, h.2.2.2.2.2.2.2, hr.symm⟩

/-- The agent's step sets the accumulators and OVF as its internal step does (R146, R151). -/
theorem advance_acc (pol : Polarity) (m : Mod) :
    (m.advance pol).a = (accStep pol m.a m.b m.curS.toInt).a ∧
      (m.advance pol).b = (accStep pol m.a m.b m.curS.toInt).b ∧
      (m.advance pol).ovf = (m.ovf || (accStep pol m.a m.b m.curS.toInt).overflow) := by
  have h := internalStep_acc pol m.curS.toInt m.curE m
  rcases advance_cases pol m with ⟨_, e⟩ | ⟨_, e⟩ <;> rw [e] <;> exact h

/-- The packer and the queue after the agent's step are those after its internal step (R151). -/
theorem advance_packer (pol : Polarity) (m : Mod) :
    (m.advance pol).pack = (m.internalStep pol m.curS.toInt m.curE).pack ∧
      (m.advance pol).nbits = (m.internalStep pol m.curS.toInt m.curE).nbits ∧
      (m.advance pol).mq = (m.internalStep pol m.curS.toInt m.curE).mq := by
  rcases advance_cases pol m with ⟨_, e⟩ | ⟨_, e⟩ <;> rw [e] <;> exact ⟨rfl, rfl, rfl⟩

/-- A turn of MOD changes MOD alone. -/
theorem modAgent_cases (s : State) :
    modAgent s = s ∨ (modEnabled s = true ∧ modAgent s = s.withMod (s.mod.advance Config.modPolarity)) := by
  unfold modAgent; split
  · next h => exact .inr ⟨h, rfl⟩
  · exact .inl rfl

/-- A step that does not emit is never held (R150). -/
theorem held_of_silent {m : Mod} (h : m.curE = false) : m.held = false := by
  simp [Mod.held, h]

/-- A step that does not complete a byte is never held (R150). -/
theorem held_of_nbits {m : Mod} (h : m.nbits ≠ 7) : m.held = false := by
  simp [Mod.held, h]

/-- With an empty queue no step is held: MOD_OUT_DEPTH is positive (R150; 00_scope.md R5). -/
theorem held_of_empty {m : Mod} (h : m.mq = []) : m.held = false := by
  unfold Mod.held queueFull
  rw [h]
  cases Config.modOutDepth <;> simp

/-- A step that is not held leaves the queue within its depth (R150). -/
theorem queue_room {m : Mod} (h : m.held = false) (he : m.curE = true) (hn : m.nbits = 7) :
    queueFull Config.modOutDepth m.mq = false := by
  simpa [Mod.held, he, hn] using h

end Sys2Proof.Machine
end

