-- ==== Sys2Proof/Laws/PerInstr.lean ====
section
/-! SUPPORT. Facts about each instruction as syntax, one lemma a constructor. -/

namespace Sys2Proof.Laws.RowAdmits

/-- The word an instruction encodes to is admitted by the row of the opcode map that bears its mnemonic and its
unit (30_encoding.md R113: `(w AND mask) = match`). -/
def Statement (i : Instr) : Prop :=
  ∃ row ∈ opRows, row.mnemonic = i.mnemonic ∧ row.unit = i.unit ∧ row.admits (encode i) = true

theorem admits_mkWord (row : OpRow) (imm mi : BitVec 16) (f8 mf op mo : Byte)
    (hm : row.mask = mkWord mi mf mo) (hp : row.pattern = mkWord 0 0 op) (hi : imm &&& mi = 0)
    (hf : f8 &&& mf = 0) (ho : op &&& mo = op) : row.admits (mkWord imm f8 op) = true := by
  unfold OpRow.admits
  rw [hm, hp, mkWord_and, hi, hf, ho]
  exact beq_self_eq_true _

theorem flagByte_reserved (b : Bool) : flagByte b &&& 0xFE#8 = 0 := by
  cases b <;> decide

theorem modInit (r : Nat) (ssel : Bool) : Statement (.modInit r ssel) :=
  ⟨⟨"MOD_INIT", .mod, 0x00000010, 0x0000FEFF⟩, by simp [opRows], rfl, rfl,
    admits_mkWord _ _ 0 _ 0xFE _ 0xFF (by decide) (by decide) (by simp) (flagByte_reserved _) (by decide)⟩

theorem modPrime : Statement .modPrime :=
  ⟨⟨"MOD_PRIME", .mod, 0x00000011, 0xFFFFFFFF⟩, by simp [opRows], rfl, rfl, by decide⟩

theorem modSample (smp : Int) : Statement (.modSample smp) :=
  ⟨⟨"MOD_SAMPLE", .mod, 0x00000012, 0x0000FFFF⟩, by simp [opRows], rfl, rfl,
    admits_mkWord _ _ 0 _ 0xFF _ 0xFF (by decide) (by decide) (by simp) (by decide) (by decide)⟩

theorem modStep (smp : Int) (e : Bool) : Statement (.modStep smp e) :=
  ⟨⟨"MOD_STEP", .mod, 0x00000013, 0x0000FEFF⟩, by simp [opRows], rfl, rfl,
    admits_mkWord _ _ 0 _ 0xFE _ 0xFF (by decide) (by decide) (by simp) (flagByte_reserved _) (by decide)⟩

theorem modEnd : Statement .modEnd :=
  ⟨⟨"MOD_END", .mod, 0x00000014, 0xFFFFFFFF⟩, by simp [opRows], rfl, rfl, by decide⟩

theorem xptCs (c : Bool) : Statement (.xptCs c) :=
  ⟨⟨"XPT_CS", .io, 0x00000020, 0xFFFFFEFF⟩, by simp [opRows], rfl, rfl, by cases c <;> decide⟩

theorem xptXfer (t : Byte) : Statement (.xptXfer t) :=
  ⟨⟨"XPT_XFER", .io, 0x00000021, 0xFFFF00FF⟩, by simp [opRows], rfl, rfl,
    admits_mkWord _ _ 0xFFFF _ 0 _ 0xFF (by decide) (by decide) (by decide) (by simp) (by decide)⟩

theorem bscInit : Statement .bscInit :=
  ⟨⟨"BSC_INIT", .io, 0x00000030, 0xFFFFFFFF⟩, by simp [opRows], rfl, rfl, by decide⟩

theorem bscRead (d : BufIdx) : Statement (.bscRead d) :=
  ⟨⟨"BSC_READ", .io, 0x00000031, 0xFFFFFEFF⟩, by simp [opRows], rfl, rfl, by revert d; decide⟩

theorem bscWrite (d : BufIdx) : Statement (.bscWrite d) :=
  ⟨⟨"BSC_WRITE", .io, 0x00000032, 0xFFFFFEFF⟩, by simp [opRows], rfl, rfl, by revert d; decide⟩

theorem strCfg : Statement .strCfg :=
  ⟨⟨"STR_CFG", .io, 0x00000040, 0xFFFFFFFF⟩, by simp [opRows], rfl, rfl, by decide⟩

theorem strStart : Statement .strStart :=
  ⟨⟨"STR_START", .io, 0x00000041, 0xFFFFFFFF⟩, by simp [opRows], rfl, rfl, by decide⟩

end Sys2Proof.Laws.RowAdmits
end

