-- ==== Sys2Proof/Laws/Transport.lean ====
section
/-! SUPPORT. The eight bit cycles (41_transport.md R193), and what XFER, CS and the read of a cell leave in each
field (R192, R194; 20_memory.md R88). -/

namespace Sys2Proof.Machine

/-- The bits of a one-bit mask. -/
theorem oneBit_getLsbD : ∀ i j : Fin 8, (1#8 <<< i.val).getLsbD j.val = decide (j = i) := by decide

/-- A bit just set reads back, and the others keep their value. -/
theorem setBit_getLsbD (v : Byte) (i j : Nat) (b : Bool) (hi : i < 8) (hj : j < 8) :
    (setBit v i b).getLsbD j = if j = i then b else v.getLsbD j := by
  have h := oneBit_getLsbD ⟨i, hi⟩ ⟨j, hj⟩
  simp only [Fin.mk.injEq] at h
  unfold setBit
  cases b
  · rw [if_neg (by decide), BitVec.getLsbD_and, BitVec.getLsbD_not, h]
    by_cases e : j = i <;> simp only [e, hi, hj, decide_true, decide_false, Bool.not_true, Bool.not_false,
      Bool.and_false, Bool.and_true, if_true, if_false]
  · rw [if_pos rfl, BitVec.getLsbD_or, h]
    by_cases e : j = i <;> simp only [e, decide_true, decide_false, Bool.or_true, Bool.or_false, if_true, if_false]

/-- The last `n` bit cycles leave the card's low `n` bits in XPT_RX, XPT_BIT = 0 and SCK low (R193). -/
theorem shiftBits_spec (n : Nat) (rx : Byte) (x : Xpt) (hn : n ≤ 8) :
    (Xpt.shiftBits n rx x).csN = x.csN ∧ (Xpt.shiftBits n rx x).rxdata = x.rxdata ∧
      (Xpt.shiftBits n rx x).tx = x.tx ∧
      (∀ j, j < 8 → (Xpt.shiftBits n rx x).rx.getLsbD j = if j < n then rx.getLsbD j else x.rx.getLsbD j) := by
  induction n generalizing x with
  | zero => simp [Xpt.shiftBits]
  | succ n ih =>
    have h := ih (Xpt.fall (Fin.ofNat 9 n) (Xpt.rise n (rx.getLsbD n) (Xpt.drive n x))) (by omega)
    refine ⟨h.1, h.2.1, h.2.2.1, fun j hj => ?_⟩
    rw [Xpt.shiftBits, h.2.2.2 j hj]
    simp only [Xpt.fall, Xpt.rise, Xpt.drive]
    rw [setBit_getLsbD _ _ _ _ (by omega) hj]
    by_cases h1 : j < n
    · simp [h1, Nat.lt_succ_of_lt h1]
    · by_cases h2 : j = n
      · subst h2; simp
      · simp [h1, h2, show ¬ j < n + 1 by omega]

/-- After at least one bit cycle the clock is low and no bit is left. -/
theorem shiftBits_idle (n : Nat) (rx : Byte) (x : Xpt) :
    (Xpt.shiftBits (n + 1) rx x).sck = false ∧ (Xpt.shiftBits (n + 1) rx x).bit = 0 := by
  induction n generalizing x with
  | zero => exact ⟨rfl, rfl⟩
  | succ n ih => exact ih _

@[simp] theorem xfer_mod (tx : Byte) (s : State) : (xfer tx s).mod = s.mod := rfl
@[simp] theorem xfer_session (tx : Byte) (s : State) : (xfer tx s).session = s.session := rfl
@[simp] theorem xfer_ioseq (tx : Byte) (s : State) : (xfer tx s).ioseq = s.ioseq := rfl
@[simp] theorem xfer_str (tx : Byte) (s : State) : (xfer tx s).str = s.str := rfl
@[simp] theorem xfer_bufs (tx : Byte) (s : State) : (xfer tx s).bufs = s.bufs := rfl
@[simp] theorem xfer_arg (tx : Byte) (s : State) : (xfer tx s).arg = s.arg := rfl
@[simp] theorem xfer_err (tx : Byte) (s : State) : (xfer tx s).err = s.err := rfl
@[simp] theorem xfer_halted (tx : Byte) (s : State) : (xfer tx s).halted = s.halted := rfl
@[simp] theorem xfer_fatalCode (tx : Byte) (s : State) : (xfer tx s).fatalCode = s.fatalCode := rfl
@[simp] theorem xfer_glitch (tx : Byte) (s : State) : (xfer tx s).glitch = s.glitch := rfl
@[simp] theorem xfer_mfault (tx : Byte) (s : State) : (xfer tx s).mfault = s.mfault := rfl

@[simp] theorem xfer_env (tx : Byte) (s : State) :
    (xfer tx s).env =
      { s.env with
        transcript := s.env.transcript ++ [.xfer ⟨s.xpt.csN, tx, cardAnswer tx s⟩],
        cardScript := s.env.cardScript.tail } := rfl

/-- The lines after an exchange (R192, R196). -/
@[simp] theorem xfer_xpt (tx : Byte) (s : State) :
    (xfer tx s).xpt =
      { csN := s.xpt.csN, sck := false, mosi := true, rxdata := cardAnswer tx s, bit := 0, tx := tx,
        rx := cardAnswer tx s } :=
  rfl

/-- What an exchange received is the card's answer (R192). -/
@[simp] theorem received_xfer (tx : Byte) (s : State) : received (xfer tx s) = cardAnswer tx s := by
  simp [received]

@[simp] theorem exchanges_append (es fs : List BusEvent) : exchanges (es ++ fs) = exchanges es ++ exchanges fs := by
  induction es with
  | nil => rfl
  | cons e es ih => cases e <;> simp [exchanges, ih]

/-- `history <- history ++ [(CS_N, tx, rx)]` (R192). -/
@[simp] theorem xfer_history (tx : Byte) (s : State) :
    (xfer tx s).history = s.history ++ [⟨s.xpt.csN, tx, cardAnswer tx s⟩] := by
  simp [State.history, exchanges]

/-- CS exchanges no byte (R194). -/
@[simp] theorem setCs_history (v : Bool) (s : State) : (setCs v s).history = s.history := by
  simp [State.history, setCs, exchanges]

@[simp] theorem setCs_mod (v : Bool) (s : State) : (setCs v s).mod = s.mod := rfl
@[simp] theorem setCs_xpt (v : Bool) (s : State) : (setCs v s).xpt = { s.xpt with csN := v } := rfl
@[simp] theorem setCs_session (v : Bool) (s : State) : (setCs v s).session = s.session := rfl
@[simp] theorem setCs_ioseq (v : Bool) (s : State) : (setCs v s).ioseq = s.ioseq := rfl
@[simp] theorem setCs_str (v : Bool) (s : State) : (setCs v s).str = s.str := rfl
@[simp] theorem setCs_bufs (v : Bool) (s : State) : (setCs v s).bufs = s.bufs := rfl
@[simp] theorem setCs_arg (v : Bool) (s : State) : (setCs v s).arg = s.arg := rfl
@[simp] theorem setCs_err (v : Bool) (s : State) : (setCs v s).err = s.err := rfl
@[simp] theorem setCs_halted (v : Bool) (s : State) : (setCs v s).halted = s.halted := rfl
@[simp] theorem setCs_fatalCode (v : Bool) (s : State) : (setCs v s).fatalCode = s.fatalCode := rfl
@[simp] theorem setCs_glitch (v : Bool) (s : State) : (setCs v s).glitch = s.glitch := rfl
@[simp] theorem setCs_mfault (v : Bool) (s : State) : (setCs v s).mfault = s.mfault := rfl
@[simp] theorem setCs_env (v : Bool) (s : State) :
    (setCs v s).env = { s.env with transcript := s.env.transcript ++ [.cs v] } := rfl

/-! ## Reading a cell -/

/-- A written cell gives its byte and changes nothing (20_memory.md R88). -/
theorem readCell_written {a : Nat} {s : State} {b : Byte} (h : Memory.read s.bufs a = some b) :
    readCell a s = (b, s) := by
  simp [readCell, h]

/-- An unwritten cell gives a free value and sets MFAULT (R88; 60_exceptions.md R280). -/
theorem readCell_unwritten {a : Nat} {s : State} (h : Memory.read s.bufs a = none) :
    readCell a s =
      (Config.unwrittenByte s.env.draws,
        (s.withMfault true).withEnv { s.env with draws := s.env.draws + 1 }) := by
  simp [readCell, h]

/-- Everything a read of a cell can do to the state. -/
theorem readCell_state (a : Nat) (s : State) :
    (readCell a s).2 = s ∨
      (readCell a s).2 = (s.withMfault true).withEnv { s.env with draws := s.env.draws + 1 } := by
  unfold readCell; split <;> simp

@[simp] theorem readCell_mod (a : Nat) (s : State) : (readCell a s).2.mod = s.mod := by
  rcases readCell_state a s with h | h <;> simp [h]
@[simp] theorem readCell_xpt (a : Nat) (s : State) : (readCell a s).2.xpt = s.xpt := by
  rcases readCell_state a s with h | h <;> simp [h]
@[simp] theorem readCell_session (a : Nat) (s : State) : (readCell a s).2.session = s.session := by
  rcases readCell_state a s with h | h <;> simp [h]
@[simp] theorem readCell_ioseq (a : Nat) (s : State) : (readCell a s).2.ioseq = s.ioseq := by
  rcases readCell_state a s with h | h <;> simp [h]
@[simp] theorem readCell_str (a : Nat) (s : State) : (readCell a s).2.str = s.str := by
  rcases readCell_state a s with h | h <;> simp [h]
@[simp] theorem readCell_bufs (a : Nat) (s : State) : (readCell a s).2.bufs = s.bufs := by
  rcases readCell_state a s with h | h <;> simp [h]
@[simp] theorem readCell_arg (a : Nat) (s : State) : (readCell a s).2.arg = s.arg := by
  rcases readCell_state a s with h | h <;> simp [h]
@[simp] theorem readCell_err (a : Nat) (s : State) : (readCell a s).2.err = s.err := by
  rcases readCell_state a s with h | h <;> simp [h]
@[simp] theorem readCell_halted (a : Nat) (s : State) : (readCell a s).2.halted = s.halted := by
  rcases readCell_state a s with h | h <;> simp [h]
@[simp] theorem readCell_fatalCode (a : Nat) (s : State) : (readCell a s).2.fatalCode = s.fatalCode := by
  rcases readCell_state a s with h | h <;> simp [h]
@[simp] theorem readCell_glitch (a : Nat) (s : State) : (readCell a s).2.glitch = s.glitch := by
  rcases readCell_state a s with h | h <;> simp [h]

/-- A read of a cell never clears MFAULT (60_exceptions.md R280). -/
theorem readCell_mfault (a : Nat) (s : State) (h : s.mfault = true) : (readCell a s).2.mfault = true := by
  rcases readCell_state a s with e | e <;> rw [e] <;> simp [h]

/-- What a read of a cell leaves of the outside: all but the count of draws. -/
theorem readCell_env (a : Nat) (s : State) :
    (readCell a s).2.env = s.env ∨ (readCell a s).2.env = { s.env with draws := s.env.draws + 1 } := by
  rcases readCell_state a s with h | h <;> rw [h] <;> simp

end Sys2Proof.Machine
end

