-- ==== Sys2Proof/Laws/Sequencer.lean ====
section
/-! SUPPORT. IOSEQ's and DRAIN's steps: what they can change (42_storage.md, 43_streaming.md, 60_exceptions.md
R286). -/

namespace Sys2Proof.Machine

/-- `t` has of `s` everything IOSEQ never writes: ARG, ERR, GLITCH, OUT_BYTE and its records, HOST's records, the
pins that are inputs, the turns. -/
def IoKeeps (s t : State) : Prop :=
  t.arg = s.arg ∧ t.err = s.err ∧ t.glitch = s.glitch ∧ t.env.rstN = s.env.rstN ∧
    t.env.outReady = s.env.outReady ∧ t.env.outByte = s.env.outByte ∧ t.env.outValid = s.env.outValid ∧
    t.env.rdata = s.env.rdata ∧ t.env.emitted = s.env.emitted ∧ t.env.popped = s.env.popped ∧
    t.env.turns = s.env.turns ∧ t.env.tick = s.env.tick ∧ t.str.role = s.str.role ∧
    t.str.cursor = s.str.cursor ∧ t.str.max = s.str.max

theorem IoKeeps.refl (s : State) : IoKeeps s s := by simp [IoKeeps]

theorem IoKeeps.trans {s t u : State} (h : IoKeeps s t) (k : IoKeeps t u) : IoKeeps s u := by
  unfold IoKeeps at *; simp_all

theorem IoKeeps.xfer (tx : Byte) (s : State) : IoKeeps s (Machine.xfer tx s) := by simp [IoKeeps]

theorem IoKeeps.setCs (v : Bool) (s : State) : IoKeeps s (Machine.setCs v s) := by simp [IoKeeps]

theorem IoKeeps.goto (p : IoPos) (s : State) : IoKeeps s (s.goto p) := by simp [IoKeeps]

theorem IoKeeps.finishIo (s : State) : IoKeeps s s.finishIo := by simp [IoKeeps]

theorem IoKeeps.writeCell (a : Nat) (b : Byte) (s : State) : IoKeeps s (s.writeCell a b) := by simp [IoKeeps]

theorem IoKeeps.raiseFatal (c : FatalCode) (s : State) : IoKeeps s (Machine.raiseFatal c s) := by
  simp [IoKeeps]

theorem IoKeeps.readCell (a : Nat) (s : State) : IoKeeps s (Machine.readCell a s).2 := by
  rcases readCell_state a s with h | h <;> rw [h] <;> simp [IoKeeps]

theorem IoKeeps.xferGoto (tx : Byte) (p : IoPos) (s : State) : IoKeeps s ((Machine.xfer tx s).goto p) :=
  (IoKeeps.xfer tx s).trans (IoKeeps.goto p _)

theorem stepTest_keeps (k : Site) (r : Byte) (s : State) : IoKeeps s (stepTest k r s) := by
  cases k <;> simp only [stepTest] <;> split_ifs <;> simp [IoKeeps]

/-- IOSEQ's step writes none of the state `IoKeeps` names. -/
theorem ioStep_keeps (s : State) : IoKeeps s (ioStep s) := by
  unfold ioStep
  split
  case h_1 => exact IoKeeps.refl s
  case h_2 => exact (IoKeeps.xfer _ s).trans (IoKeeps.finishIo _)
  case h_3 => exact (IoKeeps.setCs _ s).trans (IoKeeps.goto _ _)
  case h_4 => exact IoKeeps.xferGoto _ _ s
  case h_5 p _ =>
    cases p <;> simp only [stepSend, stepPoll]
    · exact (IoKeeps.setCs _ s).trans (IoKeeps.goto _ _)
    all_goals first | exact IoKeeps.xferGoto _ _ s | (split_ifs <;> exact IoKeeps.xferGoto _ _ s)
  case h_6 => exact stepTest_keeps _ _ s
  case h_7 => exact IoKeeps.xferGoto _ _ s
  case h_8 p _ =>
    cases p <;> simp only [stepClose]
    · exact (IoKeeps.setCs _ s).trans (IoKeeps.goto _ _)
    · exact IoKeeps.xferGoto _ _ s
  case h_9 => simp [IoKeeps, stepInitReturn]
  case h_10 => exact IoKeeps.xferGoto _ _ s
  case h_11 => simp only [stepRd3]; split_ifs <;> exact IoKeeps.xferGoto _ _ s
  case h_12 => exact ((IoKeeps.xfer _ s).trans (IoKeeps.writeCell _ _ _)).trans (IoKeeps.goto _ _)
  case h_13 => exact IoKeeps.xferGoto _ _ s
  case h_14 => exact IoKeeps.finishIo s
  case h_15 => exact IoKeeps.xferGoto _ _ s
  case h_16 => exact IoKeeps.xferGoto _ _ s
  case h_17 => exact (IoKeeps.readCell _ s).trans (IoKeeps.xferGoto _ _ _)
  case h_18 => simp only [stepW5]; split_ifs <;> exact IoKeeps.xferGoto _ _ s
  case h_19 =>
    simp only [stepW6]; split
    · exact IoKeeps.raiseFatal _ s
    · exact IoKeeps.goto _ s
  case h_20 => simp only [stepW7]; split_ifs <;> exact IoKeeps.xferGoto _ _ s
  case h_21 => exact IoKeeps.finishIo s
  case h_22 => simp [IoKeeps, stepP3]
  case h_23 => exact IoKeeps.goto _ s
  case h_24 => simp [IoKeeps, stepL2]
  case h_25 => simp [IoKeeps, stepL3]
  case h_26 => unfold stepL5; split <;> simp [IoKeeps]

/-- The fatal code DATA_RESPONSE raises is one of 4 to 7 (42_storage.md R224). -/
theorem dataResponse_some {t : Byte} {c : FatalCode} (h : dataResponse t = some c) :
    c = .invalidDataResponse ∨ c = .crcError ∨ c = .writeError ∨ c = .unknownError := by
  unfold dataResponse at h
  dsimp only at h
  split_ifs at h <;> simp_all

/-- Everything IOSEQ's step can do to the fatal latch and to MOD: a fatal entry, or nothing (60_exceptions.md
R286). -/
theorem ioStep_fatal (s : State) :
    (∃ c, c ≠ .none ∧ c ≠ .readStartTokenMissing ∧ ioStep s = raiseFatal c s) ∨
      ((ioStep s).halted = s.halted ∧ (ioStep s).fatalCode = s.fatalCode ∧ (ioStep s).mod = s.mod) := by
  unfold ioStep
  split
  case h_6 k r _ =>
    cases k <;> simp only [stepTest] <;> split_ifs <;>
      first
        | exact .inr ⟨rfl, rfl, rfl⟩
        | exact .inl ⟨_, by decide, by decide, rfl⟩
  case h_19 t _ =>
    simp only [stepW6]
    split
    · next c hc =>
      refine .inl ⟨c, ?_, ?_, rfl⟩ <;> rcases dataResponse_some hc with h | h | h | h <;> simp [h]
    · exact .inr ⟨rfl, rfl, rfl⟩
  case h_5 p _ => cases p <;> simp only [stepSend, stepPoll] <;> first | (simp; done) | (split_ifs <;> simp)
  case h_8 p _ => cases p <;> simp [stepClose]
  all_goals right
  all_goals
    simp only [stepXpt1, stepI1Cs, stepI1Clk, stepI3Trail, stepInitReturn, stepRd1, stepRd3, stepRd4, stepRd5,
      stepReadReturn, stepW1, stepW3, stepW4, stepW5, stepW7, stepWriteReturn, stepP3, stepL1, stepL2, stepL3,
      stepL5]
  all_goals first | (simp; done) | (split_ifs <;> simp)

/-- IOSEQ writes no cell but the one RD4 fills (42_storage.md R222). -/
theorem ioStep_bufs (s : State) :
    (ioStep s).bufs = s.bufs ∨
      ∃ c i, s.ioseq.pos = .rd4 c i ∧
        (ioStep s).bufs = Memory.write s.bufs (cellAddr (readBuf c s) i) (cardAnswer Config.fill s) := by
  unfold ioStep
  split
  case h_12 c i h => exact .inr ⟨c, i, h, by simp [stepRd4]⟩
  case h_6 k r _ => left; cases k <;> simp only [stepTest] <;> split_ifs <;> simp
  case h_19 t _ => left; simp only [stepW6]; split <;> simp
  case h_5 p _ => left; cases p <;> simp only [stepSend, stepPoll] <;> first | (simp; done) | (split_ifs <;> simp)
  case h_8 p _ => left; cases p <;> simp [stepClose]
  all_goals left
  all_goals
    simp only [stepXpt1, stepI1Cs, stepI1Clk, stepI3Trail, stepInitReturn, stepRd1, stepRd3, stepRd5,
      stepReadReturn, stepW1, stepW3, stepW4, stepW5, stepW7, stepWriteReturn, stepP3, stepL1, stepL2, stepL3,
      stepL5]
  all_goals first | (simp; done) | (split_ifs <;> simp)

/-- A turn of IOSEQ: its step if enabled, else nothing. -/
theorem ioAgent_cases (s : State) :
    ioAgent s = s ∨ (ioEnabled s = true ∧ ioAgent s = ioStep s) := by
  unfold ioAgent; split
  · next h => exact .inr ⟨h, rfl⟩
  · exact .inl rfl

/-- Off `idle` and off L1, a turn of IOSEQ in a block that is not halted is the step at its position. -/
theorem ioAgent_eq {s : State} {p : IoPos} (h : s.halted = false) (hp : s.ioseq.pos = p) (h1 : p ≠ .idle)
    (h2 : p ≠ .l1) : ioAgent s = ioStep s := by
  simp [ioAgent, ioEnabled, h, hp, h1, h2]

/-- A step that halts the block is a fatal entry, and its line is one of those of R285's table. -/
theorem ioStep_halts {s : State} (hn : s.halted = false) (h : (ioStep s).halted = true) :
    ∃ c, ioStep s = raiseFatal c s ∧
      ((∃ who r, s.ioseq.pos = .test (.cmd17 who) r ∧ r ≠ 0 ∧ c = .readCmdRejected) ∨
       (∃ r, s.ioseq.pos = .test .cmd24 r ∧ r ≠ 0 ∧ c = .writeCmdRejected) ∨
       (∃ x, s.ioseq.pos = .w6 x ∧ dataResponse x = some c)) := by
  unfold ioStep at h ⊢
  split at h
  case h_6 k r hp =>
    cases k <;> simp only [stepTest] at h ⊢ <;> split_ifs at h ⊢ <;> try (simp [hn] at h; done)
    · next c hc => exact ⟨_, rfl, .inl ⟨c, r, hp, hc, rfl⟩⟩
    · next hc => exact ⟨_, rfl, .inr (.inl ⟨r, hp, hc, rfl⟩)⟩
  case h_19 t hp =>
    simp only [stepW6] at h ⊢
    split at h
    · next c hc => exact ⟨c, by simp, .inr (.inr ⟨t, hp, hc⟩)⟩
    · simp [hn] at h
  case h_5 k p _ =>
    cases p <;> simp only [stepSend, stepPoll] at h <;>
      first | (simp [hn] at h; done) | (split_ifs at h <;> simp [hn] at h)
  case h_8 k p _ => cases p <;> simp [stepClose, hn] at h
  all_goals
    try simp only [stepXpt1, stepI1Cs, stepI1Clk, stepI3Trail, stepInitReturn, stepRd1, stepRd3, stepRd4, stepRd5,
      stepReadReturn, stepW1, stepW3, stepW4, stepW5, stepW7, stepWriteReturn, stepP3, stepL1, stepL2, stepL3,
      stepL5] at h
  all_goals first | (simp [hn] at h; done) | (split at h <;> simp [hn] at h)

/-! ## DRAIN -/

/-- The drain step at byte 511 is the swap (43_streaming.md R253). -/
theorem drainStep_swap {s : State} (h : s.str.cursor = 511) :
    (drainStep s).str = { s.str with role := otherBuf s.str.role, cursor := 0, refillReq := true } ∧
      (drainStep s).glitch = (s.glitch || swapGlitches s) := by
  unfold drainStep advanceCursor emitOut
  rw [if_pos (by simpa using h)]
  simp [swapGlitches]

/-- Every other drain step advances the cursor (R253). -/
theorem drainStep_advance {s : State} (h : s.str.cursor ≠ 511) :
    (drainStep s).str = { s.str with cursor := s.str.cursor + 1 } ∧ (drainStep s).glitch = s.glitch := by
  unfold drainStep advanceCursor emitOut
  rw [if_neg (by simpa using h)]
  simp

/-- The byte a drain step emits is the one it reads; MFAULT is set where the cell is unwritten (R253). -/
theorem drainStep_out (s : State) :
    (drainStep s).mfault = (readCell (cellAddr s.str.role s.str.cursor) s).2.mfault ∧
      ∃ n, (drainStep s).env =
        { s.env with
          outByte := (readCell (cellAddr s.str.role s.str.cursor) s).1, outValid := true
          emitted := s.env.emitted ++ [(readCell (cellAddr s.str.role s.str.cursor) s).1], draws := n } := by
  have hc : ∃ n, (readCell (cellAddr s.str.role s.str.cursor) s).2.env = { s.env with draws := n } := by
    rcases readCell_env (cellAddr s.str.role s.str.cursor) s with e | e
    · exact ⟨s.env.draws, e⟩
    · exact ⟨s.env.draws + 1, e⟩
  obtain ⟨n, e⟩ := hc
  unfold drainStep
  dsimp only
  generalize readCell (cellAddr s.str.role s.str.cursor) s = r at *
  refine ⟨by unfold advanceCursor; split <;> rfl, n, ?_⟩
  unfold advanceCursor
  split <;> simp [emitOut, e]

/-- The drain step changes the streaming registers, the records of what is emitted, GLITCH and MFAULT, and
nothing else (43_streaming.md R253). -/
theorem drainStep_frame (s : State) :
    (drainStep s).mod = s.mod ∧ (drainStep s).xpt = s.xpt ∧ (drainStep s).session = s.session ∧
      (drainStep s).ioseq = s.ioseq ∧ (drainStep s).bufs = s.bufs ∧ (drainStep s).arg = s.arg ∧
      (drainStep s).err = s.err ∧ (drainStep s).halted = s.halted ∧
      (drainStep s).fatalCode = s.fatalCode := by
  unfold drainStep advanceCursor emitOut; dsimp only
  split <;> simp

/-- A turn of DRAIN: its step if enabled, else nothing. -/
theorem drainAgent_cases (s : State) :
    drainAgent s = s ∨ (drainEnabled s = true ∧ drainAgent s = drainStep s) := by
  unfold drainAgent; split
  · next h => exact .inr ⟨h, rfl⟩
  · exact .inl rfl

end Sys2Proof.Machine
end

