-- ==== Sys2Proof/Laws/Step.lean ====
section
/-! SUPPORT. Everything a step can do, said once (00_scope.md R6): one case for each event of a turn. -/

namespace Sys2Proof.Machine

/-- A window place is the offset itself, inside the buffer window (20_memory.md R81). -/
theorem locate_window {off : Offset} {a : Nat} (h : locate off = .window a) :
    0x800 ≤ off.toNat ∧ off.toNat < 0xC00 ∧ a = off.toNat := by
  unfold locate at h
  iterate 14 rw [ite_eq_iff] at h; rcases h with ⟨_, h⟩ | ⟨_, h⟩ <;> [cases h; skip]
  rw [ite_eq_iff] at h
  rcases h with ⟨hw, h⟩ | ⟨_, h⟩
  · injection h with h
    exact ⟨hw.1, hw.2, h.symm⟩
  · cases h

/-- Only offset 0 is CMD (R81). -/
theorem locate_cmd {off : Offset} (h : locate off = .cmd) : off = 0x000 := by
  by_contra hne
  unfold locate at h
  rw [if_neg hne] at h
  iterate 14 rw [ite_eq_iff] at h; rcases h with ⟨_, h⟩ | ⟨_, h⟩ <;> [cases h; skip]
  cases h

/-- Only offset 4 is ARG (R81). -/
theorem locate_arg {off : Offset} (h : locate off = .arg) : off = 0x004 := by
  by_contra hne
  unfold locate at h
  rw [ite_eq_iff] at h
  rcases h with ⟨_, h⟩ | ⟨_, h⟩
  · cases h
  rw [if_neg hne] at h
  iterate 13 rw [ite_eq_iff] at h; rcases h with ⟨_, h⟩ | ⟨_, h⟩ <;> [cases h; skip]
  cases h

/-- Only offset 0x01C is MODOUT (R81). -/
theorem locate_modout {off : Offset} (h : locate off = .modout) : off = 0x01C := by
  unfold locate at h
  iterate 7 rw [ite_eq_iff] at h; rcases h with ⟨_, h⟩ | ⟨_, h⟩ <;> [cases h; skip]
  rw [ite_eq_iff] at h
  rcases h with ⟨h8, _⟩ | ⟨_, h⟩
  · exact h8
  iterate 7 rw [ite_eq_iff] at h; rcases h with ⟨_, h⟩ | ⟨_, h⟩ <;> [cases h; skip]
  cases h

/-- Everything a write on the bus can do: a command, a refusal of an illegal word, a write of ARG or of an open
window, an access error. -/
theorem busWrite_cases (off : Offset) (bytes : Nat) (v : Word) (s : State) :
    (off = 0x000 ∧ bytes = 4 ∧ ∃ i, decode v = .ok i ∧ busWrite off bytes v s = exec i s) ∨
      (off = 0x000 ∧ bytes = 4 ∧ (∃ e, decode v = .error e) ∧
        busWrite off bytes v s = .next (refuseIllegal s)) ∨
      (off = 0x004 ∧ bytes = 4 ∧ busWrite off bytes v s = .next (s.withArg v)) ∨
      (0x800 ≤ off.toNat ∧ off.toNat + 3 < 0xC00 ∧ bytes = 4 ∧ windowOpen true s = true ∧
        busWrite off bytes v s = .next (writeWord off.toNat v s)) ∨
      busWrite off bytes v s = .next (accessError s) := by
  unfold busWrite
  split
  · next hal =>
    simp only [aligned, Bool.and_eq_true, beq_iff_eq] at hal
    generalize hl : locate off = l
    cases l
    case cmd =>
      have h0 := locate_cmd hl
      show (_ ∧ _ ∧ ∃ i, decode v = .ok i ∧ writeCmd v s = exec i s) ∨
        (_ ∧ _ ∧ _ ∧ writeCmd v s = _) ∨ _
      unfold writeCmd
      cases hd : decode v with
      | ok i => exact .inl ⟨h0, hal.1, i, rfl, rfl⟩
      | error e => exact .inr (.inl ⟨h0, hal.1, ⟨e, rfl⟩, rfl⟩)
    case arg => exact .inr (.inr (.inl ⟨locate_arg hl, hal.1, rfl⟩))
    case window a =>
      obtain ⟨h1, h2, h3⟩ := locate_window hl
      by_cases hw : windowOpen true s = true
      · exact .inr (.inr (.inr (.inl ⟨h1, by omega, hal.1, hw, by rw [writeLoc, if_pos hw, h3]⟩)))
      · exact .inr (.inr (.inr (.inr (by rw [writeLoc, if_neg hw]))))
    all_goals exact .inr (.inr (.inr (.inr rfl)))
  · exact .inr (.inr (.inr (.inr rfl)))

/-- Everything a read on the bus can do to the state: nothing, an access error, a pop of MQ, or the read of a
window word. -/
theorem busRead_cases (off : Offset) (bytes : Nat) (s : State) :
    (busRead off bytes s).2 = s ∨ (busRead off bytes s).2 = accessError s ∨
      (off = 0x01C ∧ bytes = 4 ∧ (busRead off bytes s).2 = (popModout s).2) ∨
      ∃ a, (busRead off bytes s).2 = (readWord a s).2 := by
  unfold busRead
  split
  · next hal =>
    simp only [aligned, Bool.and_eq_true, beq_iff_eq] at hal
    generalize hl : locate off = l
    cases l
    case cmd => exact .inr (.inl rfl)
    case unmapped => exact .inr (.inl rfl)
    case modout => exact .inr (.inr (.inl ⟨locate_modout hl, hal.1, rfl⟩))
    case window a =>
      by_cases hw : windowOpen false s = true
      · exact .inr (.inr (.inr ⟨a, by rw [readLoc, if_pos hw]⟩))
      · exact .inr (.inl (by rw [readLoc, if_neg hw]; rfl))
    all_goals exact .inl rfl
  · exact .inr (.inl rfl)

/-- Everything a step can do, by whose turn it is; the last case is a turn that passes with nothing done. -/
theorem step_cases {s t : State} (h : step s = .next t) :
    (∃ level, s.nextTurn = .rstN level ∧ t = setRstN level s.takeTurn) ∨
      (∃ level, s.nextTurn = .outReady level ∧
        t = s.takeTurn.withEnv { s.takeTurn.env with outReady := level }) ∨
      (s.nextTurn = .mod ∧ modEnabled s.takeTurn = true ∧
        t = s.takeTurn.withMod (s.mod.advance Config.modPolarity)) ∨
      (s.nextTurn = .ioseq ∧ ioEnabled s.takeTurn = true ∧ t = ioStep s.takeTurn) ∨
      (s.nextTurn = .drain ∧ drainEnabled s.takeTurn = true ∧ t = drainStep s.takeTurn) ∨
      (∃ off bytes, s.nextTurn = .host (.read off bytes) ∧ t = deliver (busRead off bytes s.takeTurn)) ∨
      (∃ off bytes v, s.nextTurn = .host (.write off bytes v) ∧ busWrite off bytes v s.takeTurn = .next t) ∨
      t = s.takeTurn := by
  unfold step at h
  cases hn : s.nextTurn with
  | rstN level => rw [hn] at h; cases h; exact .inl ⟨level, rfl, rfl⟩
  | outReady level => rw [hn] at h; cases h; exact .inr (.inl ⟨level, rfl, rfl⟩)
  | mod =>
    rw [hn, runTurn] at h
    injection h with h
    split at h
    · rcases modAgent_cases s.takeTurn with e | ⟨he, e⟩ <;> rw [e] at h
      · exact .inr (.inr (.inr (.inr (.inr (.inr (.inr h.symm))))))
      · exact .inr (.inr (.inl ⟨rfl, he, h.symm⟩))
    · exact .inr (.inr (.inr (.inr (.inr (.inr (.inr h.symm))))))
  | ioseq =>
    rw [hn, runTurn] at h
    injection h with h
    split at h
    · rcases ioAgent_cases s.takeTurn with e | ⟨he, e⟩ <;> rw [e] at h
      · exact .inr (.inr (.inr (.inr (.inr (.inr (.inr h.symm))))))
      · exact .inr (.inr (.inr (.inl ⟨rfl, he, h.symm⟩)))
    · exact .inr (.inr (.inr (.inr (.inr (.inr (.inr h.symm))))))
  | drain =>
    rw [hn, runTurn] at h
    injection h with h
    split at h
    · rcases drainAgent_cases s.takeTurn with e | ⟨he, e⟩ <;> rw [e] at h
      · exact .inr (.inr (.inr (.inr (.inr (.inr (.inr h.symm))))))
      · exact .inr (.inr (.inr (.inr (.inl ⟨rfl, he, h.symm⟩))))
    · exact .inr (.inr (.inr (.inr (.inr (.inr (.inr h.symm))))))
  | host a =>
    rw [hn, runTurn] at h
    split at h
    · cases a with
      | read off bytes =>
        rw [hostAgent] at h
        injection h with h
        exact .inr (.inr (.inr (.inr (.inr (.inl ⟨off, bytes, rfl, h.symm⟩)))))
      | write off bytes v =>
        exact .inr (.inr (.inr (.inr (.inr (.inr (.inl ⟨off, bytes, v, rfl, h⟩))))))
    · injection h with h
      exact .inr (.inr (.inr (.inr (.inr (.inr (.inr h.symm))))))

/-- A step always answers a next state. -/
theorem step_total (s : State) : ∃ t, step s = .next t := by
  unfold step
  generalize s.nextTurn = u
  cases u with
  | host a =>
    rw [runTurn]
    split
    · cases a with
      | read off bytes => exact ⟨_, rfl⟩
      | write off bytes v =>
        rw [hostAgent]
        rcases busWrite_cases off bytes v s.takeTurn with
          ⟨_, _, i, _, e⟩ | ⟨_, _, _, e⟩ | ⟨_, _, e⟩ | ⟨_, _, _, _, e⟩ | e
        · exact ⟨_, by rw [e, exec_eq_issue]⟩
        all_goals exact ⟨_, e⟩
    · exact ⟨_, rfl⟩
  | _ => exact ⟨_, rfl⟩

/-! ## Reads of window words -/

/-- The window word of `BUF[d][4k..4k+3]` (20_memory.md R86). -/
theorem locate_buffer {off : Offset} {d : BufIdx} {k : Fin 128} (h : off.toNat = 0x800 + 512 * d.val + 4 * k.val) :
    locate off = .window off.toNat ∧ aligned off 4 = true := by
  have hd := d.isLt; have hk := k.isLt
  have ne : ∀ n : Nat, n < 0x800 → off ≠ BitVec.ofNat 12 n := by
    intro n hn e; rw [e] at h; simp at h; omega
  constructor
  · unfold locate
    rw [if_neg (show off ≠ 0 from ne 0 (by omega)),
      if_neg (show off ≠ 4 from ne 4 (by omega)),
      if_neg (show off ≠ 8 from ne 8 (by omega)),
      if_neg (show off ≠ 12 from ne 12 (by omega)),
      if_neg (show off ≠ 16 from ne 16 (by omega)),
      if_neg (show off ≠ 20 from ne 20 (by omega)),
      if_neg (show off ≠ 24 from ne 24 (by omega)),
      if_neg (show off ≠ 28 from ne 28 (by omega)),
      if_neg (show off ≠ 32 from ne 32 (by omega)),
      if_neg (show off ≠ 36 from ne 36 (by omega)),
      if_neg (show off ≠ 40 from ne 40 (by omega)),
      if_neg (show off ≠ 44 from ne 44 (by omega)),
      if_neg (show off ≠ 48 from ne 48 (by omega)),
      if_neg (show off ≠ 52 from ne 52 (by omega)),
      if_pos (by omega)]
  · simp [aligned]; omega

/-- Reading a window word changes at most MFAULT and the count of draws. -/
theorem readWord_state (a : Nat) (s : State) :
    ∃ f d, (readWord a s).2 = (s.withMfault f).withEnv { s.env with draws := d } ∧
      (s.mfault = true → f = true) := by
  have one : ∀ (x : Nat) (u : State), ∃ f d, (readCell x u).2 =
      (u.withMfault f).withEnv { u.env with draws := d } ∧ (u.mfault = true → f = true) := by
    intro x u
    rcases readCell_state x u with h | h
    · exact ⟨u.mfault, u.env.draws, by rw [h]; simp only [State.withMfault, State.withEnv], id⟩
    · exact ⟨true, u.env.draws + 1, h, fun _ => rfl⟩
  unfold readWord
  dsimp only
  obtain ⟨f0, d0, h0, k0⟩ := one a s
  obtain ⟨f1, d1, h1, k1⟩ := one (a + 1) (readCell a s).2
  obtain ⟨f2, d2, h2, k2⟩ := one (a + 2) (readCell (a + 1) (readCell a s).2).2
  obtain ⟨f3, d3, h3, k3⟩ := one (a + 3) (readCell (a + 2) (readCell (a + 1) (readCell a s).2).2).2
  refine ⟨f3, d3, ?_, fun h => k3 ?_⟩
  · rw [h3, h2, h1, h0]
    simp only [State.withMfault, State.withEnv]
  · rw [h2]
    refine k2 ?_
    rw [h1]
    refine k1 ?_
    rw [h0]
    exact k0 h

/-- A window word whose four cells are written reads as those bytes, the lowest first (20_memory.md R83). -/
theorem readWord_written {a : Nat} {s : State} {b0 b1 b2 b3 : Byte} (h0 : Memory.read s.bufs a = some b0)
    (h1 : Memory.read s.bufs (a + 1) = some b1) (h2 : Memory.read s.bufs (a + 2) = some b2)
    (h3 : Memory.read s.bufs (a + 3) = some b3) : readWord a s = (b3 ++ b2 ++ b1 ++ b0, s) := by
  simp only [readWord, readCell_written h0, readCell_written h1, readCell_written h2, readCell_written h3]

/-! ## Frames of HOST's turn and of the reset pin -/

/-- The reset pin changes only its own level, unless it rises: then the reset event happens
(70_reset_and_hazards.md R320). -/
theorem setRstN_cases (level : Bool) (s : State) :
    (∃ e, setRstN level s = s.withEnv e) ∨
      (level = true ∧ s.env.rstN = false ∧ setRstN level s = resetEvent s) := by
  unfold setRstN
  cases level with
  | false => exact .inl ⟨{ s.env with rstN := false }, by simp⟩
  | true =>
    by_cases h : s.env.rstN = true
    · exact .inl ⟨s.env, by simp [h]; rfl⟩
    · exact .inr ⟨rfl, by simpa using h, by simp [h]⟩

/-- A write on the bus, command by command: an accepted command with its action, a write of ERR alone, of ARG, of an
open window word. -/
theorem busWrite_next {off : Offset} {bytes : Nat} {v : Word} {s t : State}
    (h : busWrite off bytes v s = .next t) :
    (off = 0x000 ∧ bytes = 4 ∧ ∃ i, decode v = .ok i ∧ verdict i.unit (preOf i s) (argOf i s) s = .ok ∧
        t = actOf i s (s.withErr .ok)) ∨
      (off = 0x000 ∧ bytes = 4 ∧ ∃ e, t = s.withErr e) ∨ t = s.withArg v ∨
      (0x800 ≤ off.toNat ∧ off.toNat + 3 < 0xC00 ∧ windowOpen true s = true ∧ t = writeWord off.toNat v s) ∨
      t = s.withErr .access := by
  rcases busWrite_cases off bytes v s with
    ⟨h0, h4, i, hi, e⟩ | ⟨h0, h4, _, e⟩ | ⟨_, _, e⟩ | ⟨a, b, _, c, e⟩ | e <;> rw [e] at h
  · rcases exec_inv h with ⟨hv, ht⟩ | ⟨e, _, ht⟩
    · exact .inl ⟨h0, h4, i, hi, hv, ht⟩
    · exact .inr (.inl ⟨h0, h4, e, ht⟩)
  · cases h; exact .inr (.inl ⟨h0, h4, _, rfl⟩)
  · cases h; exact .inr (.inr (.inl rfl))
  · cases h; exact .inr (.inr (.inr (.inl ⟨a, b, c, rfl⟩)))
  · cases h; exact .inr (.inr (.inr (.inr rfl)))

/-- A read on the bus leaves all but MQ, ERR, MFAULT and the records of the outside as they were
(20_memory.md R87). -/
theorem deliver_frame (off : Offset) (bytes : Nat) (s : State) :
    (deliver (busRead off bytes s)).str = s.str ∧ (deliver (busRead off bytes s)).ioseq = s.ioseq ∧
      (deliver (busRead off bytes s)).xpt = s.xpt ∧ (deliver (busRead off bytes s)).session = s.session ∧
      (deliver (busRead off bytes s)).halted = s.halted ∧
      (deliver (busRead off bytes s)).fatalCode = s.fatalCode ∧
      (deliver (busRead off bytes s)).bufs = s.bufs ∧ (deliver (busRead off bytes s)).glitch = s.glitch := by
  unfold deliver
  rcases busRead_cases off bytes s with h | h | ⟨_, _, h⟩ | ⟨a, h⟩
  · simp [h]
  · simp [h, accessError]
  · unfold popModout at h
    split at h <;> simp [h]
  · simp [h, readWord]

/-- What a read on the bus can do to MOD: nothing, or the pop of MODOUT (40_modulator.md R152). -/
theorem deliver_mod (off : Offset) (bytes : Nat) (s : State) :
    (deliver (busRead off bytes s)).mod = s.mod ∨
      ∃ b q, s.mod.mq = b :: q ∧ (deliver (busRead off bytes s)).mod = { s.mod with mq := q } := by
  unfold deliver
  rcases busRead_cases off bytes s with h | h | ⟨_, _, h⟩ | ⟨a, h⟩
  · simp [h]
  · simp [h, accessError]
  · unfold popModout at h
    split at h
    · simp [h]
    · next b q hq => simp [h, hq]
  · simp [h, readWord]

/-- A read on the bus leaves ERR alone or writes ACCESS (20_memory.md R85, R87). -/
theorem deliver_err (off : Offset) (bytes : Nat) (s : State) :
    (deliver (busRead off bytes s)).err = s.err ∨ (deliver (busRead off bytes s)).err = .access := by
  unfold deliver
  rcases busRead_cases off bytes s with h | h | ⟨_, _, h⟩ | ⟨a, h⟩
  · simp [h]
  · simp [h, accessError]
  · unfold popModout at h
    split at h <;> simp [h]
  · simp [h, readWord]

/-- A read on the bus never clears MFAULT (60_exceptions.md R280). -/
theorem deliver_mfault (off : Offset) (bytes : Nat) (s : State) (hf : s.mfault = true) :
    (deliver (busRead off bytes s)).mfault = true := by
  unfold deliver
  rcases busRead_cases off bytes s with h | h | ⟨_, _, h⟩ | ⟨a, h⟩
  · simpa [h] using hf
  · simpa [h, accessError] using hf
  · unfold popModout at h
    split at h <;> simpa [h] using hf
  · rw [h]
    exact readCell_mfault _ _ (readCell_mfault _ _ (readCell_mfault _ _ (readCell_mfault _ _ hf)))

/-- No command sets HALTED (60_exceptions.md R286). -/
@[simp] theorem actOf_halted (i : Instr) (s0 s : State) : (actOf i s0 s).halted = s.halted := by
  cases i <;> rfl

end Sys2Proof.Machine
end

