-- ==== Sys2Proof/Tests/Slice0.lean ====
section
/-! SUPPORT. Tests of one step or one operation, with results from spec/95_test_vectors.md or from a rule's own
example; and, for each obligation with hypotheses, a state and operands that meet them (`witness_…`). -/

namespace Sys2Proof.Machine

/-! ## Well-formedness -/

theorem test_wf_refuses_wide_ratio : (Instr.modInit 65536 false).wf = false := by decide
theorem test_wf_refuses_high_sample : (Instr.modSample 32768).wf = false := by decide
theorem test_wf_refuses_low_sample : (Instr.modSample (-32769)).wf = false := by decide
theorem test_wf_refuses_wide_step : (Instr.modStep 32768 true).wf = false := by decide
theorem test_wf_takes_the_limits :
    [Instr.modInit 65535 true, .modInit 0 false, .modSample (-32768), .modSample 32767, .modStep (-32768) true].all
      Instr.wf = true := by decide

/-! ## Decoding, by words written out from R113's patterns (95_test_vectors.md section 4; R117) -/

theorem test_decode_mod :
    decode 0b00000000000001000000000000010000 = .ok (.modInit 4 false) ∧
    decode 0b00000000000000010000000100010000 = .ok (.modInit 1 true) ∧
    decode 0b00000000000000000000000000010001 = .ok .modPrime ∧
    decode 0b01000000000000000000000000010010 = .ok (.modSample 16384) ∧
    decode 0b11111111111111110000000000010010 = .ok (.modSample (-1)) ∧
    decode 0b01111111111111110000000100010011 = .ok (.modStep 32767 true) ∧
    decode 0b10000000000000000000000000010011 = .ok (.modStep (-32768) false) ∧
    decode 0b00000000000000000000000000010100 = .ok .modEnd := by decide

theorem test_decode_xpt :
    decode 0b00000000000000000000000100100000 = .ok (.xptCs true) ∧
    decode 0b00000000000000000000000000100000 = .ok (.xptCs false) ∧
    decode 0b00000000000000001010010100100001 = .ok (.xptXfer 0xA5) := by decide

theorem test_decode_bsc :
    decode 0b00000000000000000000000000110000 = .ok .bscInit ∧
    decode 0b00000000000000000000000100110001 = .ok (.bscRead 1) ∧
    decode 0b00000000000000000000000000110010 = .ok (.bscWrite 0) := by decide

theorem test_decode_str :
    decode 0b00000000000000000000000001000000 = .ok .strCfg ∧
    decode 0b00000000000000000000000001000001 = .ok .strStart := by decide

theorem test_decode_illegal :
    decode 0 = .error (.unassignedOpcode 0) ∧ decode 0x00000042 = .error (.unassignedOpcode 0x42) ∧
    decode 0x00000210 = .error (.reservedBits "MOD_INIT") ∧
    decode 0x00000112 = .error (.reservedBits "MOD_SAMPLE") ∧
    decode 0x00010021 = .error (.reservedBits "XPT_XFER") := by decide

/-- The table's question: MOD_PRIME, eight bits given. -/
theorem test_table_word : decodeTableWord 8 0x11 = some .modPrime ∧ decodeTableWord 32 0x15 = none := by decide

/-! ## The modulator's arithmetic (vectors M1 to M4, M8) -/

theorem test_step_nonInv :
    accStep .nonInv 0 0 0 = ⟨32768, 32768, false, false⟩ ∧
    accStep .nonInv (BitVec.ofInt 32 (-32766)) 3 0 = ⟨2, 5, false, false⟩ ∧
    accStep .nonInv 32773 33 0 = ⟨6, 39, true, false⟩ ∧
    accStep .nonInv 49152 32768 16384 = ⟨32769, 49153, true, false⟩ := by decide

theorem test_step_invFb :
    accStep .invFb 32767 32767 0 = ⟨BitVec.ofInt 32 (-1), 32766, false, false⟩ ∧
    accStep .invFb (BitVec.ofInt 32 (-2)) (BitVec.ofInt 32 (-5)) 0 = ⟨32765, 32760, true, false⟩ := by decide

theorem test_step_literal :
    accStep .literal (BitVec.ofInt 32 (-32767)) (BitVec.ofInt 32 (-32767)) 0 =
      ⟨BitVec.ofInt 32 (-65534), BitVec.ofInt 32 (-98301), true, false⟩ := by decide

/-- R148: the sum 2^31 leaves the range; it is stored as -2^31. -/
theorem test_step_overflow (pol : Polarity) : (accStep pol 0x7FFFFFFF 1 0).overflow = true := by
  cases pol <;> decide

/-- R149's example, and vector M7's third row: 1, 1 after PACK = 0x2D with 6 bits push 0xB7. -/
theorem test_packer :
    (([false, true, true, false, true, false, false, true].foldl Mod.packBit Mod.reset).mq = [0x69]) ∧
    ([true, true].foldl Mod.packBit { Mod.reset with pack := 0x2D, nbits := 6 }) =
      { Mod.reset with pack := 0xB7, nbits := 0, mq := [0xB7] } := by decide

/-- R150: a queue within its depth is not full, one at its depth is. -/
theorem test_queue_depth :
    queueFull (.bounded 1) [1] = false ∧ queueFull (.bounded 1) [1, 2] = true ∧
    queueFull .unbounded [1, 2] = false := by decide

/-! ## Derived numbers (vectors S1, M11, B7; R260) -/

theorem test_divisor :
    baudDivisor 16000000 8000 4 = 124 ∧ baudDivisor 16000000 16000 4 = 62 ∧
    baudDivisor 16000000 8000 3 = 166 ∧ baudDivisor 16000000 16000 8 = 30 := by decide

theorem test_stream_length :
    streamBytes 3 4 = 3 ∧ streamBytes 5 7 = 8 ∧ droppedBits 5 7 = 6 ∧ streamBytes 1 3 = 0 ∧
    droppedBits 2 1 = 4 := by decide

theorem test_exchange_counts :
    readExchanges 1 1 = 524 ∧ readExchanges 8 100 = 630 ∧ writeExchanges 2 3 3 = 529 ∧
    contractMax 1024 = 4 := by decide

/-! ## Small states -/

/-- The state in which the next turn is given. -/
def atTurn (t : Turn) (s : State) : State := s.withEnv { s.env with turns := [t] }

/-- After reset, with the card ready. -/
def ready : State := State.reset.withSession .ready

/-- IOSEQ at a line, with CARD's next answer. -/
def atLine (p : IoPos) (rx : Byte) : State :=
  ((ready.startIo p).withXpt { ready.xpt with csN := false }).withEnv { ready.env with cardScript := [rx] }

/-- Streaming, with IOSEQ at a line. -/
def streaming (p : IoPos) (cursor : SectorIdx) : State :=
  ((ready.startIo p).withStr
    { Str.reset with state := .active, irqEn := true, cursor := cursor, next := 2, max := 3 }).withEnv
    { ready.env with outReady := true }

/-- MOD running a command with a number of steps left. -/
def running (kind : ModKind) (phase : ModPhase) (n : Word) (e : Bool) : State :=
  State.reset.withMod
    { Mod.reset with r := 1, phase := phase, busy := true, kind := kind, remain := n, curE := e }

/-- MOD in a phase, idle. -/
def inPhase (p : ModPhase) : State := State.reset.withMod { Mod.reset with r := 4, phase := p }

/-- Halted by a CRC error, as at the end of program P5. -/
def haltedByCrc : State := ready.withHalt .crcError

/-- The end of priming, at P3. -/
def primed : State :=
  atTurn .ioseq ((ready.startIo .p3).withStr { Str.reset with state := .priming, max := 3 })

/-! ## MOD commands -/

/-- Program P4, step 4: MOD_INIT 2, 16000 leaves STATUS = 0x0000_2004 and MODCFG = 0x0001_0002. -/
theorem test_modInit :
    (issue .mod true true (acceptModInit 2 true) State.reset).mod.phase = .configured ∧
    statusWord (issue .mod true true (acceptModInit 2 true) State.reset) = 0x00002004 ∧
    modcfgWord (issue .mod true true (acceptModInit 2 true) State.reset) = 0x00010002 := by decide

/-- Vector M12: MOD_INIT 0 gives ARG. -/
theorem test_modInit_zero : exec (.modInit 0 false) State.reset = .next (State.reset.withErr .arg) := rfl

/-- Program P4, step 5: after MOD_INIT 2, 16000, MOD_PRIME has 32000 steps to run. -/
theorem test_modPrime :
    primeSteps { Mod.reset with r := 2, ssel := true } = 32000 ∧
    ∃ t, exec .modPrime (inPhase .configured) = .next t ∧ t.mod.remain = 32000 ∧ statusWord t = 0x00002005 :=
  ⟨by decide, _, rfl, rfl, by decide⟩

/-- Vector M12: MOD_PRIME in PRIMED gives STATE. -/
theorem test_modPrime_primed : exec .modPrime (inPhase .primed) = .next ((inPhase .primed).withErr .state) := rfl

/-- R143: one sample at R = 4 takes 8 emitting steps; -32768 is legal. -/
theorem test_modSample :
    ∃ t, exec (.modSample (-32768)) (inPhase .primed) = .next t ∧ t.mod.remain = 8 ∧
      t.mod.curS.toInt = -32768 ∧ t.mod.curE = true :=
  ⟨_, rfl, rfl, by decide, rfl⟩

/-- Program P4, step 2: MOD_SAMPLE 5 after reset gives STATE, STATUS = 0x0030_2000. -/
theorem test_modSample_unconfig :
    ∃ t, exec (.modSample 5) State.reset = .next t ∧ statusWord t = 0x00302000 := ⟨_, rfl, by decide⟩

/-- R144: MOD_STEP in CONFIGURED runs one step, emitting or not. -/
theorem test_modStep :
    ∃ t, exec (.modStep 0 true) (inPhase .configured) = .next t ∧ t.mod.remain = 1 ∧ t.mod.kind = .step ∧
      t.mod.curE = true := ⟨_, rfl, rfl, rfl, rfl⟩

/-- R145's example: with NBITS = 2 and MQ = [0xB7], MOD_END leaves MQ, and ENDED. -/
theorem test_modEnd :
    ∃ t, exec .modEnd
        (State.reset.withMod { Mod.reset with phase := .primed, pack := 2, nbits := 2, mq := [0xB7] }) = .next t ∧
      t.mod = { Mod.reset with phase := .ended, mq := [0xB7] } := ⟨_, rfl, rfl⟩

/-- R150, R151: a MOD_STEP's step ends the command, and the emitted bit is in the packer. -/
theorem test_modTurn :
    (modAgent (running .step .configured 1 true)).mod.busy = false ∧
    (modAgent (running .step .configured 1 true)).mod.phase = .configured ∧
    (modAgent (running .step .configured 1 true)).mod.nbits = 1 := by
  have h : modEnabled (running .step .configured 1 true) = true := by
    simp [modEnabled, running, State.reset, held_of_nbits, Mod.reset]
  rw [modAgent, if_pos h]
  exact ⟨rfl, rfl, rfl⟩

/-! ## IO commands -/

/-- Vector X1: XPT_CS 0 after reset leaves STATUS = 0. -/
theorem test_xptCs : ∃ t, exec (.xptCs false) State.reset = .next t ∧ statusWord t = 0 ∧ t.ioseq.busy = false :=
  ⟨_, rfl, by decide, rfl⟩

/-- Vector X4: XPT_CS while IOSEQ is busy gives BUSY and leaves CS_N. -/
theorem test_xptCs_busy :
    ∃ t, exec (.xptCs true) (atLine .xpt1 0) = .next t ∧ t.err = .busy ∧ t.xpt.csN = false := ⟨_, rfl, rfl, rfl⟩

/-- Vector X2: the exchange of 0xA5 with a card that answers 0x3C. -/
theorem test_xptXfer :
    (stepXpt1 ((atLine .xpt1 0x3C).withIo { (atLine .xpt1 0x3C).ioseq with arg := 0xA5 })).xpt.rxdata = 0x3C ∧
    (stepXpt1 ((atLine .xpt1 0x3C).withIo { (atLine .xpt1 0x3C).ioseq with arg := 0xA5 })).history =
      [⟨false, 0xA5, 0x3C⟩] := by decide

/-- R193: MOSI carries 0xA5 as 1,0,1,0,0,1,0,1. -/
theorem test_mosi :
    ([7, 6, 5, 4, 3, 2, 1, 0].map fun i => (Xpt.drive i { Xpt.reset with tx := 0xA5 }).mosi) =
      [true, false, true, false, false, true, false, true] := by decide

/-- Program P3's last line: BSC_INIT in STOPPED gives STATE. -/
theorem test_bscInit_stopped :
    ∃ t, exec .bscInit (ready.withStr { Str.reset with state := .stopped }) = .next t ∧ t.err = .state :=
  ⟨_, rfl, rfl⟩

/-- Vector B1: the CMD8 and ACMD41 frames. -/
theorem test_frames :
    frameBytes (siteIndex .cmd8) (siteArg .cmd8 State.reset) (siteCrc .cmd8) =
      [0x48, 0x00, 0x00, 0x01, 0xAA, 0x87] ∧
    frameBytes (siteIndex .acmd41) (siteArg .acmd41 State.reset) (siteCrc .acmd41) =
      [0x69, 0x40, 0x00, 0x00, 0x00, 0xFF] := by decide

/-- Vector B3: the tenth CMD0 frame is the last. -/
theorem test_cmd0_bound :
    (stepTest (.cmd0 9) 0x00 State.reset).ioseq.pos = .send (.cmd0 10) .s1 ∧
    (stepTest (.cmd0 10) 0x00 State.reset).ioseq.pos = .initReturn (some .cmd0) ∧
    (stepTest (.cmd0 10) 0x01 State.reset).ioseq.pos = .send .cmd8 .s1 := by decide

/-- R226's example: ARG = 7, BSC_READ 1; vector B4's frame bytes. -/
theorem test_bscRead :
    ∃ t, exec (.bscRead 1) (ready.withArg 7) = .next t ∧ t.ioseq.d = 1 ∧ t.ioseq.pos = .rd1 .host ∧
      (siteArg (.cmd17 .host) t).extractLsb' 0 8 = 0x07 := ⟨_, rfl, rfl, rfl, by decide⟩

/-- Vector B6: a CMD17 status of 0x05 halts the block with code 1; CS_N stays 0. -/
theorem test_read_rejected :
    (ioAgent (atLine (.test (.cmd17 .host) 0x05) 0)).fatalCode = .readCmdRejected ∧
    (ioAgent (atLine (.test (.cmd17 .host) 0x05) 0)).xpt.csN = false := by decide

/-- R222 RD4: the byte received goes into the buffer in the same step. -/
theorem test_read_byte :
    Memory.read (ioAgent (atLine (.rd4 .prime1 511) 0x42)).bufs 0xBFF = some 0x42 ∧
    (ioAgent (atLine (.rd4 .prime1 511) 0x42)).ioseq.pos = .rd5 .prime1 false := by decide

/-- Program P5: a data response of 0x0B leaves STATUS = 0x0005_4020. -/
theorem test_crc_error :
    statusWord (ioAgent (atLine (.w6 0x0B) 0)) = 0x00054020 := by decide

/-- Program P5's last line: any command is then refused with HALTED, STATUS = 0x0055_4020 (but for CS_N, 1 here). -/
theorem test_bscWrite_halted :
    ∃ t, exec (.bscWrite 0) haltedByCrc = .next t ∧ statusWord t = 0x00556020 := ⟨_, rfl, by decide⟩

/-- Vector B5, R225: W5 waits on 0xFF and takes 0xE5; W7 waits on 0x00 and ends on 0xFF. -/
theorem test_write_polls :
    (ioAgent (atLine .w5 0xFF)).ioseq.pos = .w5 ∧ (ioAgent (atLine .w5 0xE5)).ioseq.pos = .w6 0xE5 ∧
    (ioAgent (atLine .w7 0x00)).ioseq.pos = .w7 ∧ (ioAgent (atLine .w7 0xFF)).ioseq.pos = .close .cmd24 .e1 := by
  decide

/-- R250's example: ARG = 18, STR_CFG gives MAX = 18. -/
theorem test_strCfg : ∃ t, exec .strCfg (State.reset.withArg 18) = .next t ∧ t.str.max = 18 := ⟨_, rfl, rfl⟩

/-- Vector T5: STR_CFG while ACTIVE gives BUSY. -/
theorem test_strCfg_active :
    ∃ t, exec .strCfg (streaming .l1 0) = .next t ∧ t.err = .busy := ⟨_, rfl, rfl⟩

/-- Vector T5: MAX = 3 is accepted. -/
theorem test_strStart :
    ∃ t, exec .strStart (ready.withStr { Str.reset with max := 3 }) = .next t ∧ t.err = .ok ∧
      t.str.state = .priming ∧ t.ioseq.pos = .rd1 .prime0 := ⟨_, rfl, rfl, rfl, rfl⟩

/-- Vector T5: MAX = 2 gives ARG; before the card is ready, STATE comes first. -/
theorem test_strStart_refused :
    (∃ t, exec .strStart (ready.withStr { Str.reset with max := 2 }) = .next t ∧ t.err = .arg) ∧
    (∃ t, exec .strStart State.reset = .next t ∧ t.err = .state) := ⟨⟨_, rfl, rfl⟩, ⟨_, rfl, rfl⟩⟩

/-- Vector T1, step 6: L5 at NEXT = 2, MAX = 3 stops; STATUS then has STR_STATE = 3 and IO_BUSY = 0. -/
theorem test_stop :
    (ioAgent (streaming .l5 0)).str.next = 3 ∧ (ioAgent (streaming .l5 0)).str.state = .stopped ∧
    statusWord (ioAgent (streaming .l5 0)) = 0x00002320 := by decide

/-- R253, R258: the swap inside L4 is a glitch; at L1 with no request pending it is not. -/
theorem test_glitch :
    (drainAgent (streaming (.rd4 .refill 3) 511)).glitch = true ∧
    (drainAgent (streaming .l1 511)).glitch = false ∧ (drainAgent (streaming .l1 511)).str.role = 1 ∧
    (drainAgent (streaming .l1 511)).str.refillReq = true ∧ (drainAgent (streaming .l1 510)).str.cursor = 511 :=
  ⟨rfl, rfl, rfl, rfl, rfl⟩

/-! ## The host bus -/

/-- R83 with vector B4: bytes 07 08 09 0A read as 0x0A09_0807. -/
theorem test_window_read :
    (busRead 0xA00 4 (State.reset.withBufs [(0xA00, 7), (0xA01, 8), (0xA02, 9), (0xA03, 10)])).1 = 0x0A090807 := by
  decide

/-- R152's example: MQ = [0xB7] reads 0x0000_01B7, then 0. -/
theorem test_modout :
    (busRead 0x01C 4 (State.reset.withMod { Mod.reset with mq := [0xB7] })).1 = 0x000001B7 ∧
    (busRead 0x01C 4 State.reset).1 = 0 := by decide

/-- Program P4, steps 9 and 10, and the edges of R81's map. -/
theorem test_access_errors :
    busRead 0x000 4 State.reset = (0, State.reset.withErr .access) ∧
    busRead 0x034 4 State.reset = (0, State.reset) ∧
    busRead 0x038 4 State.reset = (0, State.reset.withErr .access) ∧
    busRead 0x7FC 4 State.reset = (0, State.reset.withErr .access) ∧
    busRead 0xC00 4 State.reset = (0, State.reset.withErr .access) ∧
    busRead 0x00A 4 State.reset = (0, State.reset.withErr .access) ∧
    busRead 0x008 2 State.reset = (0, State.reset.withErr .access) ∧
    busRead 0x800 4 (streaming .l1 0) = (0, (streaming .l1 0).withErr .access) := by decide

theorem test_write_refused :
    busWrite 0x008 4 0xFFFFFFFF State.reset = .next (State.reset.withErr .access) ∧
    busWrite 0x800 4 0 haltedByCrc = .next (haltedByCrc.withErr .access) := ⟨rfl, rfl⟩

/-- R57's layout with vector M6: PACK = 0x02, NBITS = 2 reads 0x0000_0202. -/
theorem test_pack_word :
    packWord (State.reset.withMod { Mod.reset with pack := 2, nbits := 2 }) = 0x00000202 := by decide

/-- An unwritten cell sets MFAULT, and the run goes on (R88, R280). -/
theorem test_unwritten : (busRead 0x800 4 State.reset).2.mfault = true := by decide

/-- R320: while RST_N = 0 the word placed waits for its rise; `withFetchWord` sets it high. -/
theorem test_fetch_word :
    ∃ t, step ((State.reset.withEnv { Env.reset with rstN := false }).withFetchWord 32 0x20) = .next t ∧
      t.xpt.csN = false := ⟨_, rfl, rfl⟩

/-! ## The sample container (R159 to R161) -/

/-- A container with a data length and data bytes. -/
def wavFile (length : Byte) (data : List Byte) : List Byte :=
  [0x52, 0x49, 0x46, 0x46, 0, 0, 0, 0, 0x57, 0x41, 0x56, 0x45, 0x66, 0x6D, 0x74, 0x20, 16, 0, 0, 0, 1, 0, 1, 0] ++
  [0x40, 0x1F, 0, 0, 0, 0, 0, 0, 0, 0, 16, 0, 0x64, 0x61, 0x74, 0x61, length, 0, 0, 0] ++ data

/-- An odd last byte is ignored (R161); bytes missing from the data are a truncation (R160). -/
theorem test_container :
    readContainer (wavFile 5 [0xFF, 0xFF, 0x00, 0x40, 0x77]) = .ok ⟨false, [-1, 16384]⟩ ∧
    readContainer (wavFile 5 [0xFF, 0xFF]) = .error .truncatedData ∧
    readContainer [0x52, 0x49] = .error .malformedSignature := by decide

/-! ## Host programs -/

/-- R324 with K = 2: program P3's words, with a read of STATUS after each CMD write. -/
theorem test_boot :
    (streamBootLines 1024).map HostLine.access =
      [.write 0x000 4 0x00000030, .read 0x008 4, .read 0x008 4, .read 0x008 4, .write 0x004 4 4,
        .write 0x000 4 0x00000040, .read 0x008 4, .write 0x000 4 0x00000041, .read 0x008 4, .read 0x008 4] := by
  decide

/-- R324: 0x2020 (Ready, program P3) goes on; 0x2040 is `Failed(Cmd0)` (R41), an ERR of 3 or HALTED stops too. -/
theorem test_boot_checks :
    requireReady.after [pop] 0x00002020 = .running [pop] ∧
    requireReady.after [pop] 0x00002040 = .stopped requireReady 0x00002040 ∧
    checkErr.after [pop] 0x00302000 = .stopped checkErr 0x00302000 ∧
    waitStopped.after [] 0x00002320 = .running [] ∧
    waitStopped.after [] 0x00006220 = .stopped waitStopped 0x00006220 ∧
    waitStopped.after [] 0x00002222 = .running [waitStopped] := by decide

/-- R118: POLL reads STATUS again while MOD is busy; R163: with a POP between; step 6 ends at VALID = 0. -/
theorem test_polls :
    waitMod.after [] 0x00002005 = .running [waitMod] ∧ waitMod.after [] 0x00002008 = .running [] ∧
    waitModPopping.after [] 0x00002009 = .running [pop, waitModPopping] ∧
    popAll.after [] 0x000001B7 = .running [popAll] ∧ popAll.after [] 0 = .running [] := by decide

/-- HOST's turn runs the program's line and not the access decided. -/
theorem test_hosted_step :
    ∃ t, Hosted.step ⟨.running [waitMod], atTurn (.host (.read 0x000 4)) (running .prime .configured 2 false)⟩ =
      .next ⟨.running [waitMod], t⟩ ∧ t.err = .ok ∧ t.env.rdata = 0x00002005 := ⟨_, rfl, rfl, rfl⟩

/-- R163 on a container of no sample: MOD_INIT 4, 8000; MOD_PRIME; WAIT_MOD; MOD_END; POP (R163, R117). -/
theorem test_encode :
    encodeFile 4 (wavFile 0 []) =
      .ok (.running [.wr 0 0x00040010, .wr 0 0x00000011, waitMod, .wr 0 0x00000014, popAll]) ∧
    encodeFile 4 [] = .error .malformedSignature := by decide

/-- A state that is halted with MFAULT set is `faulted`, not the final `halted` (R280, R332). -/
theorem test_faulted_not_final :
    EndState.faulted.holds (haltedByCrc.withMfault true) ∧ ¬ EndState.halted.holds (haltedByCrc.withMfault true) ∧
    ¬ EndState.idle.holds ((inPhase .ended).withMfault true) :=
  ⟨rfl, fun h => absurd h.2 (by decide), fun h => absurd h.2.2.2 (by decide)⟩

/-! ## Witnesses: for each obligation with hypotheses, a state and operands that meet them -/

theorem witness_DecodeOfEncode :
    (Instr.modInit 65535 true).wf = true ∧ (Instr.modSample (-32768)).wf = true ∧
    (Instr.modStep 32767 false).wf = true ∧ (Instr.bscWrite 1).wf = true := by decide

theorem witness_EncodeOfDecode : decode 0x80000012 = .ok (.modSample (-32768)) := by decide

theorem witness_DecodeFollowsOpcodeMap :
    (⟨"XPT_CS", .io, 0x00000020, 0xFFFFFEFF⟩ : OpRow) ∈ opRows ∧
    (0x00000120 : Word) &&& 0xFFFFFEFF = 0x00000020 := by decide

theorem witness_IllegalWordsOnlySetErr :
    State.reset.halted = false ∧ decode 0xFF = .error (.unassignedOpcode 0xFF) ∧
    decode 0x00020010 = .ok (.modInit 2 false) ∧ decode 0x00020210 = .error (.reservedBits "MOD_INIT") := by decide

theorem witness_StepRunsDecodedCommand :
    decode 0x00000030 = .ok .bscInit ∧
    (atTurn (.host (.write 0x000 4 0x00000030)) State.reset).nextTurn = .host (.write 0x000 4 0x00000030) ∧
    (atTurn (.host (.write 0x000 4 0x00000030)) State.reset).env.rstN = true := by decide

theorem witness_TurnsAreAgentSteps :
    (State.reset.env.rstN = true ∧ (atTurn .mod State.reset).nextTurn = .mod ∧
      (atTurn .ioseq State.reset).nextTurn = .ioseq ∧ (atTurn .drain State.reset).nextTurn = .drain ∧
      (atTurn (.host (.read 0x008 4)) State.reset).nextTurn = .host (.read 0x008 4) ∧
      (atTurn (.host (.write 0x004 4 1)) State.reset).nextTurn = .host (.write 0x004 4 1)) ∧
    (State.reset.withEnv { Env.reset with rstN := false, turns := [.mod] }).env.rstN = false ∧
    (State.reset.withEnv { Env.reset with rstN := false, turns := [.mod] }).nextTurn = .mod ∧
    (atTurn (.outReady true) State.reset).nextTurn = .outReady true ∧
    (atTurn (.rstN false) State.reset).nextTurn = .rstN false ∧
    ((atTurn (.rstN true) State.reset).nextTurn = .rstN true ∧ (atTurn (.rstN true) State.reset).env.rstN = true) ∧
    State.reset.env.turns = [] ∧ (atTurn .mod State.reset).env.turns = .mod :: [] := by decide

/-- Every state is a witness: some step is taken from it. -/
theorem witness_step : ∃ t, step State.reset = .next t := step_total _

theorem witness_RefusedCommandWritesOnlyErr : ∃ t, exec .modPrime State.reset = .next t ∧ t.err ≠ .ok :=
  ⟨_, rfl, by decide⟩

theorem witness_ChecksInOrder :
    haltedByCrc.halted = true ∧ (State.reset.halted = false ∧ decode 0 = .error (.unassignedOpcode 0)) ∧
    ((running .prime .configured 1 false).halted = false ∧ Instr.modEnd.unit = .mod ∧
      (running .prime .configured 1 false).mod.busy = true) ∧
    ((streaming .l1 0).halted = false ∧ Instr.strCfg.unit = .io ∧ (streaming .l1 0).ioseq.busy = true) ∧
    ((ready.withStr { Str.reset with state := .stopped }).halted = false ∧
      (ready.withStr { Str.reset with state := .stopped }).ioseq.busy = false ∧
      (ready.withStr { Str.reset with state := .stopped }).str.state = .stopped) ∧
    (State.reset.ioseq.busy = false ∧ State.reset.session ≠ .ready) := by decide

theorem witness_ModInitConfigures :
    (1 ≤ 65535 ∧ 65535 ≤ 65535) ∧ (1 ≤ 1 ∧ 1 ≤ 65535) ∧ State.reset.halted = false ∧
    State.reset.mod.busy = false := by decide

theorem witness_ModCommandsStart :
    ((inPhase .configured).halted = false ∧ (inPhase .configured).mod.busy = false ∧
      (inPhase .configured).mod.phase = .configured) ∧
    ((-32768 : Int) ≤ -32768 ∧ (-32768 : Int) ≤ 32767 ∧ (inPhase .primed).halted = false ∧
      (inPhase .primed).mod.busy = false ∧ (inPhase .primed).mod.phase = .primed) := by decide

theorem witness_ModEndDiscardsPartialByte :
    (inPhase .primed).halted = false ∧ (inPhase .primed).mod.busy = false ∧
    ((inPhase .primed).mod.phase = .configured ∨ (inPhase .primed).mod.phase = .primed) := by decide

theorem witness_ModCommandRefusals :
    (running .step .primed 1 true).halted = false ∧ (running .step .primed 1 true).mod.busy = true ∧
    (inPhase .ended).halted = false ∧ (inPhase .ended).mod.busy = false ∧
    (inPhase .ended).mod.phase ≠ .configured ∧ (inPhase .ended).mod.phase ≠ .primed ∧
    (State.reset.mod.phase = .unconfig ∨ State.reset.mod.phase = .ended) := by decide

theorem witness_XptCommandsAccepted :
    State.reset.halted = false ∧ State.reset.ioseq.busy = false ∧ State.reset.str.state ≠ .stopped := by decide

theorem witness_BscInitStarts :
    (State.reset.withSession (.failed .cmd8)).halted = false ∧
    (State.reset.withSession (.failed .cmd8)).ioseq.busy = false ∧
    (State.reset.withSession (.failed .cmd8)).str.state ≠ .stopped ∧
    (State.reset.withSession (.failed .cmd8)).session ≠ .ready := by decide

theorem witness_BscReadWriteStart :
    ready.halted = false ∧ ready.ioseq.busy = false ∧ ready.str.state ≠ .stopped ∧ ready.session = .ready := by
  decide

theorem witness_StrCfgSetsMax :
    State.reset.halted = false ∧ State.reset.ioseq.busy = false ∧ State.reset.str.state = .idle := by decide

theorem witness_StrStartPrimes :
    (ready.withStr { Str.reset with max := 3 }).halted = false ∧
    (ready.withStr { Str.reset with max := 3 }).ioseq.busy = false ∧
    (ready.withStr { Str.reset with max := 3 }).str.state = .idle ∧
    (ready.withStr { Str.reset with max := 3 }).session = .ready ∧
    3 ≤ (ready.withStr { Str.reset with max := 3 }).str.max.toNat := by decide

theorem witness_IoCommandRefusals :
    ((streaming .l1 0).halted = false ∧ Instr.bscInit.unit = .io ∧ (streaming .l1 0).ioseq.busy = true) ∧
    ((ready.withStr { Str.reset with state := .stopped }).ioseq.busy = false ∧
      (ready.withStr { Str.reset with state := .stopped }).str.state = .stopped) ∧
    (ready.halted = false ∧ ready.ioseq.busy = false ∧ ready.session = .ready) ∧
    (State.reset.ioseq.busy = false ∧ State.reset.session ≠ .ready) ∧
    ((ready.withStr { Str.reset with state := .priming }).ioseq.busy = false ∧
      (ready.withStr { Str.reset with state := .priming }).str.state ≠ .idle) ∧
    ((ready.withStr { Str.reset with max := 2 }).ioseq.busy = false ∧
      (ready.withStr { Str.reset with max := 2 }).session = .ready ∧
      (ready.withStr { Str.reset with max := 2 }).str.state = .idle ∧
      (ready.withStr { Str.reset with max := 2 }).str.max.toNat < 3) := by decide

theorem witness_AccumulatorStep :
    ((.invFb, -32768, 32767, -1) : Polarity × Int × Int × Int) ∈
      [(Polarity.literal, (-32768 : Int), (32767 : Int), (1 : Int)), (.nonInv, 32767, -32768, 1),
        (.invFb, -32768, 32767, -1)] ∧
    (accStep .invFb 0x7FFFFFFF 1 0).overflow = true ∧ (accStep .invFb 0 0 (-32768)).overflow = false := by decide

theorem witness_PackerIsMsbFirst :
    (Mod.reset.nbits ≠ 7 ∧ Mod.reset.nbits = 0 ∧ Mod.reset.mq = []) ∧
    ({ Mod.reset with nbits := 7 } : Mod).nbits = 7 := by decide

theorem running_not_held (kind : ModKind) (phase : ModPhase) (n : Word) (e : Bool) :
    (running kind phase n e).mod.held = false := held_of_empty rfl

theorem witness_ModTurnRunsOneStep :
    ¬ (State.reset.mod.busy = true ∧ State.reset.halted = false ∧ State.reset.mod.held = false) ∧
    (running .sample .primed 2 true).mod.busy = true ∧ (running .sample .primed 2 true).halted = false ∧
    (running .sample .primed 2 true).mod.held = false ∧
    (running .prime .configured 1 false).mod.curE = false ∧ (running .sample .primed 2 true).mod.curE = true :=
  ⟨by simp [State.reset, Mod.reset], rfl, rfl, running_not_held _ _ _ _, rfl, rfl⟩

theorem witness_PrimeCompletesSilently :
    (running .prime .configured 2 false).halted = false ∧ (running .prime .configured 2 false).mod.busy = true ∧
    (running .prime .configured 2 false).mod.kind = .prime ∧
    (running .prime .configured 2 false).mod.curE = false ∧
    (running .prime .configured 2 false).mod.remain ≠ 0 := by decide

theorem witness_EmittingCommandCountsBits :
    (running .sample .primed 8 true).halted = false ∧ (running .sample .primed 8 true).mod.busy = true ∧
    (running .sample .primed 8 true).mod.curE = true ∧ (running .sample .primed 8 true).mod.remain ≠ 0 ∧
    (∀ q : List Byte,
      q.length < (running .sample .primed 8 true).mod.mq.length +
        ((running .sample .primed 8 true).mod.nbits.val +
          (running .sample .primed 8 true).mod.remain.toNat) / 8 →
      queueFull Config.modOutDepth q = false) := by
  refine ⟨rfl, rfl, rfl, by decide, fun q hq => ?_⟩
  have h1 : q.length < 1 := hq
  have h0 : q.length = 0 := Nat.lt_one_iff.1 h1
  unfold queueFull
  cases Config.modOutDepth with
  | unbounded => rfl
  | bounded pred => rw [h0]; exact decide_eq_false (Nat.not_succ_le_zero _)

theorem witness_OvfIsSticky_cleared :
    ∃ t, step (placeCommand 0x00040010 (State.reset.withMod { Mod.reset with ovf := true })) = .next t ∧
      t.mod.ovf = false := ⟨_, rfl, rfl⟩

/-- MOD at a step whose first sum leaves the range. -/
def overflowing : State :=
  atTurn .mod ((running .step .configured 1 false).withMod
    { (running .step .configured 1 false).mod with a := 0x7FFFFFFF, b := 1 })

theorem witness_OvfIsSticky_set :
    (overflowing.mod.busy = true ∧ overflowing.halted = false ∧ overflowing.mod.held = false ∧
      (accStep Config.modPolarity overflowing.mod.a overflowing.mod.b overflowing.mod.curS.toInt).overflow = true) ∧
    ∃ t, step overflowing = .next t ∧ overflowing.mod.ovf = false ∧ t.mod.ovf = true := by
  have hf : (accStep Config.modPolarity overflowing.mod.a overflowing.mod.b
      overflowing.mod.curS.toInt).overflow = true := test_step_overflow _
  refine ⟨⟨rfl, rfl, held_of_silent rfl, hf⟩, modAgent overflowing.takeTurn, rfl, rfl, ?_⟩
  have he : modEnabled overflowing.takeTurn = true := by
    have h : overflowing.takeTurn.mod.held = false := held_of_silent rfl
    rw [modEnabled, h]; rfl
  rw [modAgent, if_pos he, State.withMod_mod, (advance_acc _ _).2.2]
  exact Bool.or_eq_true_iff.2 (.inr hf)

theorem witness_ModoutReadPops :
    (atTurn (.host (.read 0x01C 4)) (State.reset.withMod { Mod.reset with mq := [0xB7] })).nextTurn =
      .host (.read 0x01C 4) ∧
    (atTurn (.host (.read 0x01C 4)) (State.reset.withMod { Mod.reset with mq := [0xB7] })).env.rstN = true ∧
    (atTurn (.host (.read 0x01C 4)) (State.reset.withMod { Mod.reset with mq := [0xB7] })).mod.mq = 0xB7 :: [] ∧
    (atTurn (.host (.read 0x01C 4)) State.reset).mod.mq = [] := by decide

theorem witness_ModPhaseTransitions :
    modKindFitsPhase (atTurn .mod (running .prime .configured 1 false)) ∧
    ∃ t, step (atTurn .mod (running .prime .configured 1 false)) = .next t :=
  ⟨by unfold modKindFitsPhase; decide, step_total _⟩

theorem witness_ExchangeLines :
    ([.xpt1, .i1cs, .i1clk 98, .i1clk 99, .send .cmd24 .s1, .send .cmd24 .s2, .send .cmd24 .s3, .send .cmd24 .s4,
      .send .cmd24 .s5, .send .cmd24 .s6, .send .cmd24 .s7, .send .cmd16 .s8, .i3trail 2, .i3trail 3,
      .close (.cmd16 0) .e1, .close (.cmd16 0) .e2, .rd1 .host, .rd3 .host, .rd4 .host 510, .rd4 .refill 511,
      .rd5 .host false, .rd5 .host true, .w1, .w3, .w4 510, .w4 511, .w5, .w7, .readReturn, .writeReturn] :
      List IoPos).all
        (fun p => !(atLine p 0xFE).halted && (atLine p 0xFE).ioseq.pos == p) = true := by decide

theorem witness_ExchangeLines_card :
    State.reset.ioseq.pos = .idle ∧ State.reset.env.cardScript = [] ∧
    (atLine .xpt1 0xFE).env.cardScript = 0xFE :: [] := by decide

theorem witness_SendCmdSendsFrame :
    (atLine (.send (.cmd0 10) .s1) 0xFF).halted = false ∧
    (atLine (.send (.cmd0 10) .s1) 0xFF).ioseq.pos = .send (.cmd0 10) .s1 := by decide

theorem witness_ReadFillsBuffer :
    ((atLine (.rd4 .refill 511) 0x42).halted = false ∧
      (atLine (.rd4 .refill 511) 0x42).ioseq.pos = .rd4 .refill 511) ∧
    (atLine (.rd4 .host 0) 0x42).ioseq.pos = .rd4 .host 0 := by decide

theorem witness_WriteSendsBuffer :
    ((atLine (.w4 511) 0xFF).withBufs [(0x9FF, 7)]).halted = false ∧
    ((atLine (.w4 511) 0xFF).withBufs [(0x9FF, 7)]).ioseq.pos = .w4 511 ∧
    (∀ j : SectorIdx, 511 ≤ j → ∃ b,
      Memory.read ((atLine (.w4 511) 0xFF).withBufs [(0x9FF, 7)]).bufs
        (cellAddr ((atLine (.w4 511) 0xFF).withBufs [(0x9FF, 7)]).ioseq.d j) = some b) := by
  refine ⟨rfl, rfl, fun j hj => ⟨7, ?_⟩⟩
  have h : j = 511 := Fin.le_antisymm (Fin.le_last j) hj
  subst h
  rfl

theorem witness_DataResponseOutcome :
    (atLine (.w6 0x04) 0).halted = false ∧ (atLine (.w6 0x04) 0).ioseq.pos = .w6 0x04 ∧
    ((0x04 : Byte) &&& 0x1F).getLsbD 0 = false ∧ (0x0B : Byte) &&& 0x1F = 0x0B ∧
    (0xED : Byte) &&& 0x1F = 0x0D ∧ (0xE5 : Byte) &&& 0x1F = 0x05 ∧
    (((0x1F : Byte) &&& 0x1F).getLsbD 0 = true ∧ (0x1F : Byte) &&& 0x1F ≠ 0x0B ∧
      (0x1F : Byte) &&& 0x1F ≠ 0x0D ∧ (0x1F : Byte) &&& 0x1F ≠ 0x05) := by decide

theorem witness_FatalEntry :
    ∃ t, step (atTurn .ioseq (atLine (.test (.cmd17 .refill) 0x05) 0)) = .next t ∧
      (atTurn .ioseq (atLine (.test (.cmd17 .refill) 0x05) 0)).halted = false ∧ t.halted = true ∧
      selectedInsideBracket (atTurn .ioseq (atLine (.test (.cmd17 .refill) 0x05) 0)) :=
  ⟨_, rfl, rfl, rfl, fun _ => rfl⟩

theorem witness_FatalEntry_status :
    (atLine (.test (.cmd17 .host) 0) 0).halted = false ∧
    (atLine (.test (.cmd17 .host) 0) 0).ioseq.pos = .test (.cmd17 .host) 0 ∧
    (atLine (.test (.cmd17 .prime1) 1) 0).ioseq.pos = .test (.cmd17 .prime1) 1 ∧
    (atLine (.test .cmd24 0) 0).ioseq.pos = .test .cmd24 0 ∧
    (atLine (.test .cmd24 0x7F) 0).ioseq.pos = .test .cmd24 0x7F ∧ (0x7F : Byte) ≠ 0 := by decide

theorem witness_HaltedBlock :
    haltedByCrc.halted = true ∧ (0x800 ≤ (0x800 : Offset).toNat ∧ (0x800 : Offset).toNat < 0xC00) ∧
    (0x800 ≤ (0xBFF : Offset).toNat ∧ (0xBFF : Offset).toNat < 0xC00) ∧
    (haltedByCrc.withMod { Mod.reset with mq := [1, 2] }).mod.mq = 1 :: [2] := by decide

theorem witness_HaltedBlock_reset :
    ∃ t, step (haltedByCrc.withEnv { Env.reset with rstN := false, turns := [.rstN true] }) = .next t ∧
      t.halted = false := ⟨_, rfl, rfl⟩

theorem witness_InitLines :
    ((atLine (.test (.cmd0 10) 0) 0).halted = false ∧
      (atLine (.test (.cmd0 10) 0) 0).ioseq.pos = .test (.cmd0 10) 0) ∧
    (atLine (.test .cmd8 5) 0).ioseq.pos = .test .cmd8 5 ∧
    (atLine (.test .cmd55 0) 0).ioseq.pos = .test .cmd55 0 ∧
    (atLine (.test .acmd41 5) 0).ioseq.pos = .test .acmd41 5 ∧
    (atLine (.test .cmd16 4) 0).ioseq.pos = .test .cmd16 4 ∧
    (atLine (.i1clk 99) 0).ioseq.pos = .i1clk 99 ∧ (atLine (.i3trail 3) 0).ioseq.pos = .i3trail 3 ∧
    (atLine (.initReturn none) 0).ioseq.pos = .initReturn none := by decide

theorem witness_SessionTransitions :
    initRunsUninitialized (atTurn .ioseq ((atLine (.initReturn none) 0).withSession .uninitialized)) ∧
    ∃ t, step (atTurn .ioseq ((atLine (.initReturn none) 0).withSession .uninitialized)) = .next t ∧
      t.session = .ready :=
  ⟨fun _ => rfl, _, rfl, rfl⟩

theorem witness_DrainStepEffect :
    ((streaming .l1 511).str.irqEn = true ∧ (streaming .l1 511).env.outReady = true ∧
      (streaming .l1 511).halted = false ∧ (streaming .l1 511).str.cursor = 511) ∧
    Memory.read ((streaming .l1 511).withBufs [(0x9FF, 7)]).bufs (cellAddr 0 511) = some 7 ∧
    Memory.read (streaming .l1 511).bufs (cellAddr 0 511) = none ∧
    (streaming .l1 510).str.cursor ≠ 511 ∧ primed.str.irqEn = false ∧ ready.env.outReady = false := by decide

theorem witness_DrainPlaysRestOfBuffer :
    ((streaming .l1 511).withBufs [(0x9FF, 7)]).str.irqEn = true ∧
    ((streaming .l1 511).withBufs [(0x9FF, 7)]).env.outReady = true ∧
    ((streaming .l1 511).withBufs [(0x9FF, 7)]).halted = false ∧
    (∀ j : SectorIdx, ((streaming .l1 511).withBufs [(0x9FF, 7)]).str.cursor ≤ j → ∃ b,
      Memory.read ((streaming .l1 511).withBufs [(0x9FF, 7)]).bufs
        (cellAddr ((streaming .l1 511).withBufs [(0x9FF, 7)]).str.role j) = some b) := by
  refine ⟨rfl, rfl, rfl, fun j hj => ⟨7, ?_⟩⟩
  have h : j = 511 := Fin.le_antisymm (Fin.le_last j) hj
  subst h
  rfl

theorem witness_SwapLaw :
    ((streaming .l1 511).str.irqEn = true ∧ (streaming .l1 511).env.outReady = true ∧
      (streaming .l1 511).halted = false ∧ (streaming .l1 511).str.cursor = 511) ∧
    ∃ t, step (atTurn .drain (streaming .l1 511)) = .next t ∧
      (atTurn .drain (streaming .l1 511)).str.state = .active ∧
      t.str.role ≠ (atTurn .drain (streaming .l1 511)).str.role :=
  ⟨by decide, _, rfl, rfl, by decide⟩

theorem witness_RefillLines :
    (streaming (.close (.cmd17 .prime0) .e2) 0).ioseq.pos = .close (.cmd17 .prime0) .e2 ∧
    (streaming (.close (.cmd17 .prime1) .e2) 0).ioseq.pos = .close (.cmd17 .prime1) .e2 ∧
    (streaming (.close (.cmd17 .refill) .e2) 0).ioseq.pos = .close (.cmd17 .refill) .e2 ∧
    ((streaming .p3 0).halted = false ∧ (streaming .p3 0).ioseq.pos = .p3) ∧
    ((streaming .l1 0).ioseq.pos = .l1 ∧ (streaming .l1 0).str.refillReq = false) ∧
    (((streaming .l1 0).withStr { (streaming .l1 0).str with refillReq := true }).ioseq.pos = .l1 ∧
      ((streaming .l1 0).withStr { (streaming .l1 0).str with refillReq := true }).str.refillReq = true) ∧
    (streaming .l2 0).ioseq.pos = .l2 ∧ (streaming .l3 0).ioseq.pos = .l3 ∧
    ((streaming .l5 0).ioseq.pos = .l5 ∧ (streaming .l5 0).str.next + 1 = (streaming .l5 0).str.max) ∧
    (((streaming .l5 0).withStr { (streaming .l5 0).str with max := 4 }).ioseq.pos = .l5 ∧
      ((streaming .l5 0).withStr { (streaming .l5 0).str with max := 4 }).str.next + 1 ≠
        ((streaming .l5 0).withStr { (streaming .l5 0).str with max := 4 }).str.max) := by decide

theorem witness_IrqEnWriters :
    (drainOnlyWhileActive primed ∧ ∃ t, step primed = .next t ∧ primed.str.irqEn = false ∧ t.str.irqEn = true) ∧
    (drainOnlyWhileActive (atTurn .ioseq (streaming .l5 0)) ∧
      ∃ t, step (atTurn .ioseq (streaming .l5 0)) = .next t ∧
        (atTurn .ioseq (streaming .l5 0)).str.irqEn = true ∧ t.str.irqEn = false) :=
  ⟨⟨by unfold drainOnlyWhileActive; decide, _, rfl, rfl, rfl⟩,
    ⟨by unfold drainOnlyWhileActive; decide, _, rfl, rfl, rfl⟩⟩

theorem primed_inv : sequencerInvariant primed := by
  unfold sequencerInvariant ioBusyWhileRunning initRunsUninitialized loopCountersFit drainOnlyWhileActive
    streamFollowsSequencer selectedInsideBracket
  decide

theorem witness_StrStateTransitions :
    sequencerInvariant primed ∧ ∃ t, step primed = .next t ∧ t.str.state = .active := ⟨primed_inv, _, rfl, rfl⟩

/-- The bytes of the lowest and of the highest window word. -/
def cells : Memory :=
  [(0x800, 1), (0x801, 2), (0x802, 3), (0x803, 4), (0xBFC, 5), (0xBFD, 6), (0xBFE, 7), (0xBFF, 8)]

def filled (s : State) : State := s.withBufs cells

theorem witness_WindowWriteReadsBack :
    (0x800 : Offset).toNat = 0x800 + 512 * (0 : BufIdx).val + 4 * (0 : Fin 128).val ∧
    (0xBFC : Offset).toNat = 0x800 + 512 * (1 : BufIdx).val + 4 * (127 : Fin 128).val ∧
    State.reset.ioseq.busy = false ∧ (State.reset.str.state = .idle ∨ State.reset.str.state = .stopped) ∧
    State.reset.halted = false := by decide

theorem filled_cells (s : State) :
    (∀ (j : Fin 4) (i : SectorIdx), i.val = 4 * (0 : Fin 128).val + j.val →
      Memory.read (filled s).bufs (cellAddr 0 i) = some (BitVec.ofNat 8 (1 + j.val))) ∧
    (∀ (j : Fin 4) (i : SectorIdx), i.val = 4 * (127 : Fin 128).val + j.val →
      Memory.read (filled s).bufs (cellAddr 1 i) = some (BitVec.ofNat 8 (5 + j.val))) := by
  have h0 : ∀ j : Fin 4, Memory.read cells (0x800 + j.val) = some (BitVec.ofNat 8 (1 + j.val)) := by decide
  have h1 : ∀ j : Fin 4, Memory.read cells (0xBFC + j.val) = some (BitVec.ofNat 8 (5 + j.val)) := by decide
  refine ⟨fun j i hi => ?_, fun j i hi => ?_⟩
  · rw [← h0 j]
    congr 1
    simp [cellAddr, hi]
  · rw [← h1 j]
    congr 1
    simp [cellAddr, hi]
    omega

theorem witness_HaltedBlock_window :
    (filled haltedByCrc).halted = true ∧ (filled haltedByCrc).ioseq.busy = false ∧
    ((filled haltedByCrc).str.state = .idle ∨ (filled haltedByCrc).str.state = .stopped) ∧
    (∀ (j : Fin 4) (i : SectorIdx), i.val = 4 * (127 : Fin 128).val + j.val →
      Memory.read (filled haltedByCrc).bufs (cellAddr 1 i) = some (BitVec.ofNat 8 (5 + j.val))) :=
  ⟨rfl, rfl, .inl rfl, (filled_cells _).2⟩

theorem witness_AccessErrors :
    (2 ≠ 4 ∧ (0x00A : Offset).toNat % 4 ≠ 0 ∧ (0x038 ≤ (0x038 : Offset).toNat ∧ (0x038 : Offset).toNat < 0x800) ∧
      (0x038 ≤ (0x7FF : Offset).toNat ∧ (0x7FF : Offset).toNat < 0x800) ∧ 0xC00 ≤ (0xC00 : Offset).toNat ∧
      (0x000 : Offset).toNat = 0x000) ∧
    (0x800 ≤ (0xBFF : Offset).toNat ∧ (0xBFF : Offset).toNat < 0xC00 ∧ (streaming .l1 0).ioseq.busy = true) ∧
    (0x008 ≤ (0x008 : Offset).toNat ∧ (0x008 : Offset).toNat < 0x800) ∧ haltedByCrc.halted = true := by decide

theorem witness_ResetEvent :
    ((streaming .l1 0).withEnv { Env.reset with rstN := false, turns := [.rstN true] }).env.rstN = false ∧
    ((streaming .l1 0).withEnv { Env.reset with rstN := false, turns := [.rstN true] }).nextTurn =
      .rstN true := by decide

theorem witness_UnwrittenCellSetsMfault :
    (0x800 ≤ (0x800 : Offset).toNat ∧ (0x800 : Offset).toNat < 0xC00 ∧ (0x800 : Offset).toNat % 4 = 0) ∧
    State.reset.ioseq.busy = false ∧ (State.reset.str.state = .idle ∨ State.reset.str.state = .stopped) ∧
    (∃ j, j < 4 ∧ Memory.read State.reset.bufs ((0x800 : Offset).toNat + j) = none) ∧
    (∀ j, j < 4 → ∃ b, Memory.read
      (State.reset.withBufs [(0x800, 1), (0x801, 2), (0x802, 3), (0x803, 4)]).bufs
      ((0x800 : Offset).toNat + j) = some b) := by
  refine ⟨by decide, rfl, .inl rfl, ⟨3, by decide⟩, fun j hj => ?_⟩
  match j, hj with
  | 0, _ => exact ⟨1, by decide⟩
  | 1, _ => exact ⟨2, by decide⟩
  | 2, _ => exact ⟨3, by decide⟩
  | 3, _ => exact ⟨4, by decide⟩
  | n + 4, h => exact absurd h (by omega)

theorem witness_UnwrittenCellSetsMfault_agents :
    drainEnabled (streaming .l1 511) = true ∧
    Memory.read (streaming .l1 511).bufs (cellAddr (streaming .l1 511).str.role (streaming .l1 511).str.cursor) =
      none ∧
    (filled (streaming .l1 0)).str.cursor = 0 ∧ Memory.read (filled (streaming .l1 0)).bufs (cellAddr 0 0) = some 1 ∧
    (atLine (.w4 511) 0).halted = false ∧ (atLine (.w4 511) 0).ioseq.pos = .w4 511 ∧
    Memory.read (atLine (.w4 511) 0).bufs (cellAddr 0 511) = none ∧
    Memory.read (filled (atLine (.w4 0) 0)).bufs (cellAddr 0 0) = some 1 := by decide

theorem witness_MfaultKept :
    (∃ t, step (State.reset.withMfault true) = .next t) ∧ (State.reset.withMfault true).mfault = true :=
  ⟨step_total _, rfl⟩

theorem witness_MemoryCanonicalKept :
    memoryCanonical (State.reset.withBufs [(0x800, 1), (0xBFF, 2)]) ∧
    ∃ t, step (State.reset.withBufs [(0x800, 1), (0xBFF, 2)]) = .next t :=
  ⟨by unfold memoryCanonical; decide, step_total _⟩

theorem witness_OwnershipKept :
    ownership ((streaming (.rd4 .refill 0) 0).withIo { (streaming (.rd4 .refill 0) 0).ioseq with tgt := 1 }) ∧
    ∃ t, step ((streaming (.rd4 .refill 0) 0).withIo { (streaming (.rd4 .refill 0) 0).ioseq with tgt := 1 }) =
      .next t :=
  ⟨fun _ _ => by decide, step_total _⟩

theorem witness_ModCommandKept :
    (modBusyWhileStepsRemain (running .sample .primed 2 true) ∧ modKindFitsPhase (running .sample .primed 2 true) ∧
      ((running .sample .primed 2 true).mod.phase ≠ .unconfig → (running .sample .primed 2 true).mod.r ≠ 0)) ∧
    ∃ t, step (running .sample .primed 2 true) = .next t :=
  ⟨by unfold modBusyWhileStepsRemain modKindFitsPhase; decide, step_total _⟩

theorem witness_QueueWithinDepthKept :
    queueWithinDepth (running .sample .primed 2 true) ∧ ∃ t, step (running .sample .primed 2 true) = .next t := by
  refine ⟨?_, step_total _⟩
  unfold queueWithinDepth
  split
  · trivial
  · exact Nat.zero_le _

theorem witness_FatalLatchKept :
    (haltedIsQuiet haltedByCrc ∧ fatalLatch haltedByCrc ∧ linesAtRest haltedByCrc) ∧
    ∃ t, step haltedByCrc = .next t :=
  ⟨by unfold haltedIsQuiet fatalLatch linesAtRest; decide, step_total _⟩

theorem witness_SequencerInvariantKept : sequencerInvariant primed ∧ ∃ t, step primed = .next t :=
  ⟨primed_inv, step_total _⟩

theorem witness_DeselectedBytesIgnored :
    selectedInsideBracket (ready.startIo (.rd1 .host)) ∧ (ready.startIo (.rd1 .host)).xpt.csN = true :=
  ⟨fun h => absurd h (by decide), rfl⟩

end Sys2Proof.Machine
end

section
/-! SUPPORT. What a step is, given whose turn comes next (00_scope.md R6, 70_reset_and_hazards.md R320): one equation
a turn, so that no later proof unfolds `step`; and, from them, the statement about turns. -/

namespace Sys2Proof.Machine

/-! ## The next turn -/

theorem nextTurn_of_decided {s : State} {u : Turn} {us : List Turn} (h : s.env.turns = u :: us) : s.nextTurn = u := by
  rw [State.nextTurn, h]

theorem nextTurn_of_undecided {s : State} (h : s.env.turns = []) : s.nextTurn = Config.environment s.env.tick := by
  rw [State.nextTurn, h]

/-! ## The step of a turn -/

theorem step_eq_runTurn {s : State} {u : Turn} (h : s.nextTurn = u) : step s = runTurn u s.takeTurn := by
  rw [step, h]

theorem takeTurn_rstN (s : State) : s.takeTurn.env.rstN = s.env.rstN := rfl

theorem step_mod {s : State} (hr : s.env.rstN = true) (h : s.nextTurn = .mod) :
    step s = .next (modAgent s.takeTurn) := by
  rw [step_eq_runTurn h, runTurn, takeTurn_rstN, if_pos hr]

theorem step_ioseq {s : State} (hr : s.env.rstN = true) (h : s.nextTurn = .ioseq) :
    step s = .next (ioAgent s.takeTurn) := by
  rw [step_eq_runTurn h, runTurn, takeTurn_rstN, if_pos hr]

theorem step_drain {s : State} (hr : s.env.rstN = true) (h : s.nextTurn = .drain) :
    step s = .next (drainAgent s.takeTurn) := by
  rw [step_eq_runTurn h, runTurn, takeTurn_rstN, if_pos hr]

theorem step_host {s : State} {a : Access} (hr : s.env.rstN = true) (h : s.nextTurn = .host a) :
    step s = hostAgent a s.takeTurn := by
  rw [step_eq_runTurn h, runTurn, takeTurn_rstN, if_pos hr]

theorem step_read {s : State} {off : Offset} {bytes : Nat} (hr : s.env.rstN = true)
    (h : s.nextTurn = .host (.read off bytes)) : step s = .next (deliver (busRead off bytes s.takeTurn)) :=
  step_host hr h

theorem step_write {s : State} {off : Offset} {bytes : Nat} {v : Word} (hr : s.env.rstN = true)
    (h : s.nextTurn = .host (.write off bytes v)) : step s = busWrite off bytes v s.takeTurn :=
  step_host hr h

/-- R320: in reset an agent's turn passes with nothing done. -/
theorem step_agent_inReset {s : State} (hr : s.env.rstN = false)
    (h : s.nextTurn = .mod ∨ s.nextTurn = .ioseq ∨ s.nextTurn = .drain ∨ ∃ a, s.nextTurn = .host a) :
    step s = .next s.takeTurn := by
  have low : ¬ s.takeTurn.env.rstN = true := by rw [takeTurn_rstN, hr]; exact Bool.false_ne_true
  rcases h with h | h | h | ⟨a, h⟩ <;> rw [step_eq_runTurn h, runTurn, if_neg low]

/-! ## The step of a pin event -/

theorem step_outReady {s : State} {level : Bool} (h : s.nextTurn = .outReady level) :
    step s = .next (s.takeTurn.withEnv { s.takeTurn.env with outReady := level }) :=
  step_eq_runTurn h

theorem step_rstN {s : State} {level : Bool} (h : s.nextTurn = .rstN level) :
    step s = .next (setRstN level s.takeTurn) :=
  step_eq_runTurn h

theorem setRstN_low (s : State) : setRstN false s = s.withEnv { s.env with rstN := false } := rfl

theorem setRstN_high_of_high {s : State} (hr : s.env.rstN = true) : setRstN true s = s := by
  rw [setRstN, if_pos rfl, if_pos hr]

/-! ## The statement -/

/-- Settles O7, from the equation of each turn. -/
theorem turnsAreAgentSteps : Obligations.TurnsAreAgentSteps := by
  unfold Obligations.TurnsAreAgentSteps
  intro s
  refine ⟨fun hr => ⟨step_mod hr, step_ioseq hr, step_drain hr, ?read, fun _ _ _ => step_write hr⟩,
    step_agent_inReset, ?outReady, ?fall, ?stayHigh, nextTurn_of_undecided, fun _ _ => nextTurn_of_decided⟩
  case read => exact fun _ _ h => step_read hr h
  case outReady => exact fun _ h => step_outReady h
  case fall => intro h; rw [step_rstN h, setRstN_low]; rfl
  case stayHigh => intro h hr; rw [step_rstN h, setRstN_high_of_high (takeTurn_rstN s ▸ hr)]

end Sys2Proof.Machine
end

section
/-! SUPPORT. A word that decodes is the word of its instruction, whose operands lie in their ranges (30_encoding.md
R111, R113, R115): one lemma a shape of command, then the decoder. -/

namespace Sys2Proof

theorem flagByte_of_flagField {f8 : Byte} {b : Bool} (h : flagField f8 = some b) : flagByte b = f8 := by
  unfold flagField at h
  split_ifs at h with h0 h1 <;> cases h
  · exact h0.symm
  · exact h1.symm

theorem flagOfBuf_bufOfFlag (b : Bool) : flagOfBuf (bufOfFlag b) = b := by
  cases b <;> rfl

/-- A sample field holds a sample (R111). -/
theorem sampleFits_toInt (imm : BitVec 16) : Instr.sampleFits imm.toInt :=
  ⟨BitVec.le_toInt imm, Int.le_of_lt_add_one BitVec.toInt_lt⟩

theorem encode_modInit_toNat (imm : BitVec 16) (b : Bool) :
    encode (.modInit imm.toNat b) = mkWord imm (flagByte b) 0x10 := by
  rw [encode, BitVec.ofNat_toNat, BitVec.setWidth_eq]

theorem encode_modStep_toInt (imm : BitVec 16) (b : Bool) :
    encode (.modStep imm.toInt b) = mkWord imm (flagByte b) 0x13 := by
  rw [encode, BitVec.ofInt_toInt]

theorem encode_modSample_toInt (imm : BitVec 16) : encode (.modSample imm.toInt) = mkWord imm 0 0x12 := by
  rw [encode, BitVec.ofInt_toInt]

theorem encode_bscRead_bufOfFlag (b : Bool) : encode (.bscRead (bufOfFlag b)) = mkWord 0 (flagByte b) 0x31 := by
  rw [encode, flagOfBuf_bufOfFlag]

theorem encode_bscWrite_bufOfFlag (b : Bool) : encode (.bscWrite (bufOfFlag b)) = mkWord 0 (flagByte b) 0x32 := by
  rw [encode, flagOfBuf_bufOfFlag]

section
variable {w : Word} {op : Byte} {name : String} {i : Instr}

/-- A command without operands. -/
theorem encode_of_plainCommand {j : Instr} (hop : wordOp w = op) (hj : encode j = mkWord 0 0 op)
    (hwf : j.wf = true) (h : plainCommand name j w = .ok i) : encode i = w ∧ i.wf = true := by
  unfold plainCommand at h
  split at h
  · next hz =>
    cases h
    exact ⟨by rw [hj, ← hz.1, ← hz.2, ← hop, mkWord_fields], hwf⟩
  · nomatch h

/-- A command whose only operand is `F8[0]`. -/
theorem encode_of_flagCommand {mk : Bool → Instr} (hop : wordOp w = op)
    (hj : ∀ b, encode (mk b) = mkWord 0 (flagByte b) op) (hwf : ∀ b, (mk b).wf = true)
    (h : flagCommand name mk w = .ok i) : encode i = w ∧ i.wf = true := by
  unfold flagCommand at h
  split at h
  · next b hb =>
    split at h
    · next hz =>
      cases h
      exact ⟨by rw [hj, flagByte_of_flagField hb, ← hz, ← hop, mkWord_fields], hwf b⟩
    · nomatch h
  · nomatch h

/-- A command with operands in `IMM16` and `F8[0]`. -/
theorem encode_of_immFlagCommand {mk : BitVec 16 → Bool → Instr} (hop : wordOp w = op)
    (hj : ∀ imm b, encode (mk imm b) = mkWord imm (flagByte b) op) (hwf : ∀ imm b, (mk imm b).wf = true)
    (h : immFlagCommand name mk w = .ok i) : encode i = w ∧ i.wf = true := by
  unfold immFlagCommand at h
  split at h
  · next b hb =>
    cases h
    exact ⟨by rw [hj, flagByte_of_flagField hb, ← hop, mkWord_fields], hwf _ b⟩
  · nomatch h

end

/-- No bit of a word that decodes is dropped, and its operands lie in their ranges: opcode by opcode. -/
theorem encode_of_decode {w : Word} {i : Instr} (h : decode w = .ok i) : encode i = w ∧ i.wf = true := by
  unfold decode at h
  obtain ⟨hop, h⟩ | ⟨-, h⟩ := ite_eq_iff.1 h
  · exact encode_of_immFlagCommand hop encode_modInit_toNat
      (fun imm _ => decide_eq_true (Nat.le_of_lt_succ imm.isLt)) h
  obtain ⟨hop, h⟩ | ⟨-, h⟩ := ite_eq_iff.1 h
  · exact encode_of_plainCommand hop rfl rfl h
  obtain ⟨hop, h⟩ | ⟨-, h⟩ := ite_eq_iff.1 h
  · obtain ⟨hf, h⟩ | ⟨-, h⟩ := ite_eq_iff.1 h <;> cases h
    exact ⟨by rw [encode_modSample_toInt, ← hop, ← hf, mkWord_fields], decide_eq_true (sampleFits_toInt _)⟩
  obtain ⟨hop, h⟩ | ⟨-, h⟩ := ite_eq_iff.1 h
  · exact encode_of_immFlagCommand hop encode_modStep_toInt (fun imm _ => decide_eq_true (sampleFits_toInt imm)) h
  obtain ⟨hop, h⟩ | ⟨-, h⟩ := ite_eq_iff.1 h
  · exact encode_of_plainCommand hop rfl rfl h
  obtain ⟨hop, h⟩ | ⟨-, h⟩ := ite_eq_iff.1 h
  · exact encode_of_flagCommand hop (fun _ => rfl) (fun _ => rfl) h
  obtain ⟨hop, h⟩ | ⟨-, h⟩ := ite_eq_iff.1 h
  · obtain ⟨hi, h⟩ | ⟨-, h⟩ := ite_eq_iff.1 h <;> cases h
    exact ⟨by rw [encode, ← hop, ← hi, mkWord_fields], rfl⟩
  obtain ⟨hop, h⟩ | ⟨-, h⟩ := ite_eq_iff.1 h
  · exact encode_of_plainCommand hop rfl rfl h
  obtain ⟨hop, h⟩ | ⟨-, h⟩ := ite_eq_iff.1 h
  · exact encode_of_flagCommand hop encode_bscRead_bufOfFlag (fun _ => rfl) h
  obtain ⟨hop, h⟩ | ⟨-, h⟩ := ite_eq_iff.1 h
  · exact encode_of_flagCommand hop encode_bscWrite_bufOfFlag (fun _ => rfl) h
  obtain ⟨hop, h⟩ | ⟨-, h⟩ := ite_eq_iff.1 h
  · exact encode_of_plainCommand hop rfl rfl h
  obtain ⟨hop, h⟩ | ⟨-, h⟩ := ite_eq_iff.1 h
  · exact encode_of_plainCommand hop rfl rfl h
  nomatch h

/-- The ratio of a MOD_INIT fits MOD_R (R111). -/
theorem ratio_of_decode {w : Word} {r : Nat} {ssel : Bool} (h : decode w = .ok (.modInit r ssel)) : r ≤ 65535 :=
  of_decide_eq_true (encode_of_decode h).2

end Sys2Proof
end

section
/-! SUPPORT. What one line of IOSEQ does to the sequencer (10_state.md R42), said once, and from it the sequencer's
invariant and the transitions of STR_STATE. -/

namespace Sys2Proof.Machine

/-! ## Lines of one procedure -/

/-- Going on from `p` at `q` leaves no procedure, and no part of streaming, for another. For two given lines each part
holds by evaluating the predicate on both. -/
structure SameProcedure (p q : IoPos) : Prop where
  runs : q ≠ .idle
  init : q.inInit = p.inInit
  priming : q.inPriming = p.inPriming
  refill : q.inRefillLoop = p.inRefillLoop
  counters : p.countersFit = true → q.countersFit = true

theorem sameProcedure_send (k : Site) (a b : SendPos) : SameProcedure (.send k a) (.send k b) := by
  cases k <;> exact ⟨nofun, rfl, rfl, rfl, id⟩

theorem sameProcedure_afterSend (k : Site) (a : SendPos) (r : Byte) :
    SameProcedure (.send k a) (afterSend k r) := by
  cases k <;> exact ⟨nofun, rfl, rfl, rfl, id⟩

theorem sameProcedure_close (k : CloseSite) (a b : ClosePos) : SameProcedure (.close k a) (.close k b) := by
  cases k <;> exact ⟨nofun, rfl, rfl, rfl, id⟩

theorem sameProcedure_afterClose (k : CloseSite) (a : ClosePos) :
    SameProcedure (.close k a) (afterClose k) := by
  cases k with
  | cmd17 c => cases c <;> exact ⟨nofun, rfl, rfl, rfl, id⟩
  | _ => exact ⟨nofun, rfl, rfl, rfl, id⟩

theorem inBracket_idle : IoPos.idle.inBracket = false := rfl

theorem inBracket_afterClose (k : CloseSite) : (afterClose k).inBracket = false := by
  cases k with
  | cmd17 c => cases c <;> rfl
  | _ => rfl

/-! ## What a line leaves -/

/-- `t` has of `s` what only P3, L5 and a fatal entry write, and the card's lines rest in it if they did in `s`. -/
structure KeepsStream (s t : State) : Prop where
  state : t.str.state = s.str.state
  irqEn : t.str.irqEn = s.str.irqEn
  halted : t.halted = s.halted
  lines : linesAtRest s → linesAtRest t

/-- The line hands on to a line of its procedure; a line inside a bracket is reached with the card selected, or from
inside the bracket. -/
structure GoesOn (s t : State) : Prop extends KeepsStream s t where
  session : t.session = s.session
  busy : t.ioseq.busy = s.ioseq.busy
  line : SameProcedure s.ioseq.pos t.ioseq.pos
  select : t.ioseq.pos.inBracket = true →
    t.xpt.csN = false ∨ (s.ioseq.pos.inBracket = true ∧ t.xpt.csN = s.xpt.csN)

/-- The line ends a command that does not stream. -/
structure Ends (s t : State) : Prop extends KeepsStream s t where
  busy : t.ioseq.busy = false
  idle : t.ioseq.pos = .idle
  notPriming : s.ioseq.pos.inPriming = false
  notRefill : s.ioseq.pos.inRefillLoop = false

/-- Everything a line of IOSEQ can do to the sequencer. -/
inductive LineEffect (s : State) : State → Prop where
  | goesOn {t : State} (h : GoesOn s t) : LineEffect s t
  | ends {t : State} (h : Ends s t) : LineEffect s t
  | fatal (c : FatalCode) : LineEffect s (raiseFatal c s)
  | streams (h : s.ioseq.pos = .p3) : LineEffect s (stepP3 s)
  | stops (h : s.ioseq.pos = .l5) :
      LineEffect s (s.withStr { s.str with next := s.str.next + 1, irqEn := false, state := .stopped }).finishIo

section
variable {s : State} {p q : IoPos}

/-- An exchange leaves the card's lines at rest (41_transport.md R196). -/
theorem linesAtRest_xfer (tx : Byte) (s : State) : linesAtRest (xfer tx s) := ⟨rfl, rfl, rfl⟩

/-- A line that does its work in `u` and goes on at `q`. -/
theorem GoesOn.move {u : State} (hp : s.ioseq.pos = p) (hl : SameProcedure p q) (hk : KeepsStream s u)
    (hs : u.session = s.session) (hio : u.ioseq.busy = s.ioseq.busy)
    (hb : q.inBracket = true → u.xpt.csN = false ∨ (p.inBracket = true ∧ u.xpt.csN = s.xpt.csN)) :
    GoesOn s (u.goto q) where
  state := hk.state
  irqEn := hk.irqEn
  halted := hk.halted
  lines := hk.lines
  session := hs
  busy := hio
  line := hp ▸ hl
  select := hp ▸ hb

theorem GoesOn.goto (hp : s.ioseq.pos = p) (hl : SameProcedure p q)
    (hb : q.inBracket = true → p.inBracket = true) : GoesOn s (s.goto q) :=
  .move hp hl ⟨rfl, rfl, rfl, id⟩ rfl rfl fun h => .inr ⟨hb h, rfl⟩

theorem GoesOn.xferGoto (tx : Byte) (hp : s.ioseq.pos = p) (hl : SameProcedure p q)
    (hb : q.inBracket = true → p.inBracket = true) : GoesOn s ((xfer tx s).goto q) :=
  .move hp hl ⟨rfl, rfl, rfl, fun _ => linesAtRest_xfer tx s⟩ rfl rfl fun h => .inr ⟨hb h, rfl⟩

theorem GoesOn.setCsGoto (v : Bool) (hp : s.ioseq.pos = p) (hl : SameProcedure p q)
    (hb : q.inBracket = true → v = false) : GoesOn s ((setCs v s).goto q) :=
  .move hp hl ⟨rfl, rfl, rfl, id⟩ rfl rfl fun h => .inl (hb h)

/-- SEND_CMD: the select, the frame, the poll (R210, R211). -/
theorem stepSend_goesOn {k : Site} {a : SendPos} (hp : s.ioseq.pos = .send k a) :
    GoesOn s (stepSend k a s) := by
  cases a with
  | s1 => exact .setCsGoto _ hp (sameProcedure_send k _ _) fun _ => rfl
  | s8 =>
    simp only [stepSend, stepPoll]
    split
    · exact .xferGoto _ hp (sameProcedure_send k _ _) id
    · exact .xferGoto _ hp (sameProcedure_afterSend k _ _) fun _ => rfl
  | _ => exact .xferGoto _ hp (sameProcedure_send k _ _) fun _ => rfl

/-- CMD_END: the deselect, the trailing clock (R212). -/
theorem stepClose_goesOn {k : CloseSite} {a : ClosePos} (hp : s.ioseq.pos = .close k a) :
    GoesOn s (stepClose k a s) := by
  cases a with
  | e1 => exact .setCsGoto _ hp (sameProcedure_close k _ _) nofun
  | e2 => exact .xferGoto _ hp (sameProcedure_afterClose k _) (by simp [inBracket_afterClose])

/-- An idle clock of I1: the next one, or the first CMD0 frame after `INIT_IDLE_BYTES` of them (R216). -/
theorem stepI1Clk_goesOn {n : Nat} (hp : s.ioseq.pos = .i1clk n) : GoesOn s (stepI1Clk n s) := by
  unfold stepI1Clk
  split
  · next hn =>
    exact .xferGoto _ hp ⟨nofun, rfl, rfl, rfl, fun _ => by simpa [IoPos.countersFit] using hn⟩ id
  · exact .xferGoto _ hp ⟨nofun, rfl, rfl, rfl, fun _ => rfl⟩ id

/-- A trailing byte of CMD8: the next one, or CMD_END after four (R218). -/
theorem stepI3Trail_goesOn {n : Nat} (hp : s.ioseq.pos = .i3trail n) : GoesOn s (stepI3Trail n s) := by
  unfold stepI3Trail
  split
  · next hn =>
    exact .xferGoto _ hp ⟨nofun, rfl, rfl, rfl, fun _ => by simpa [IoPos.countersFit] using hn⟩ id
  · exact .xferGoto _ hp ⟨nofun, rfl, rfl, rfl, fun _ => rfl⟩ id

/-- A CMD0 status: CMD8, the next attempt while one is left, or the end of INIT (R217). -/
theorem stepTest_cmd0_goesOn {n : Nat} {r : Byte} (hp : s.ioseq.pos = .test (.cmd0 n) r) :
    GoesOn s (stepTest (.cmd0 n) r s) := by
  simp only [stepTest]
  split_ifs with hr hn
  · exact .goto hp ⟨nofun, rfl, rfl, rfl, fun _ => rfl⟩ id
  · have hc : (IoPos.send (.cmd0 (n + 1)) .s1).countersFit = true := by
      simpa [IoPos.countersFit] using hn
    exact .goto hp ⟨nofun, rfl, rfl, rfl, fun _ => hc⟩ id
  · exact .goto hp ⟨nofun, rfl, rfl, rfl, fun _ => rfl⟩ id

/-- A status test goes on in its procedure or raises a fatal error (42_storage.md R217 to R220, R222, R223). -/
theorem stepTest_effect {k : Site} {r : Byte} (hp : s.ioseq.pos = .test k r) :
    LineEffect s (stepTest k r s) := by
  cases k with
  | cmd0 n => exact .goesOn (stepTest_cmd0_goesOn hp)
  | cmd17 c =>
    simp only [stepTest]
    split
    · exact .goesOn (.goto hp ⟨nofun, rfl, rfl, rfl, id⟩ id)
    · exact .fatal _
  | cmd24 =>
    simp only [stepTest]
    split
    · exact .goesOn (.goto hp ⟨nofun, rfl, rfl, rfl, id⟩ id)
    · exact .fatal _
  | cmd8 =>
    simp only [stepTest]
    split <;> exact .goesOn (.goto hp ⟨nofun, rfl, rfl, rfl, fun _ => rfl⟩ fun _ => rfl)
  | _ =>
    simp only [stepTest]
    split <;> exact .goesOn (.goto hp ⟨nofun, rfl, rfl, rfl, fun _ => rfl⟩ nofun)

/-- RD3 polls or takes the start token (R222). -/
theorem stepRd3_goesOn {c : ReadFor} (hp : s.ioseq.pos = .rd3 c) : GoesOn s (stepRd3 c s) := by
  simp only [stepRd3]
  split <;> exact .xferGoto _ hp ⟨nofun, rfl, rfl, rfl, id⟩ id

/-- RD4 takes the next byte, or after the last the CRC (R222). -/
theorem stepRd4_goesOn {c : ReadFor} {i : SectorIdx} (hp : s.ioseq.pos = .rd4 c i) :
    GoesOn s (stepRd4 c i s) := by
  have keeps (a : Nat) (b : Byte) : KeepsStream s ((xfer Config.fill s).writeCell a b) :=
    ⟨rfl, rfl, rfl, fun _ => linesAtRest_xfer Config.fill s⟩
  unfold stepRd4
  split <;> exact .move hp ⟨nofun, rfl, rfl, rfl, id⟩ (keeps _ _) rfl rfl fun h => .inr ⟨h, rfl⟩

/-- RD5 discards two bytes, then the bracket closes (R222). -/
theorem stepRd5_goesOn {c : ReadFor} {second : Bool} (hp : s.ioseq.pos = .rd5 c second) :
    GoesOn s (stepRd5 c second s) := by
  cases second <;> exact .xferGoto _ hp ⟨nofun, rfl, rfl, rfl, id⟩ id

/-- W4 sends the next byte, or after the last waits for the response (R223). -/
theorem stepW4_goesOn {i : SectorIdx} (hp : s.ioseq.pos = .w4 i) : GoesOn s (stepW4 i s) := by
  have keeps (a : Nat) : KeepsStream s (xfer (readCell a s).1 (readCell a s).2) :=
    ⟨by simp, by simp, by simp, fun _ => linesAtRest_xfer _ _⟩
  unfold stepW4
  split <;>
    exact .move hp ⟨nofun, rfl, rfl, rfl, id⟩ (keeps _) (by simp) (by simp) fun h => .inr ⟨h, by simp⟩

/-- W5 polls for the data response (R223). -/
theorem stepW5_goesOn (hp : s.ioseq.pos = .w5) : GoesOn s (stepW5 s) := by
  simp only [stepW5]
  split <;> exact .xferGoto _ hp ⟨nofun, rfl, rfl, rfl, id⟩ id

/-- The data response is accepted or fatal (R224). -/
theorem stepW6_effect {x : Byte} (hp : s.ioseq.pos = .w6 x) : LineEffect s (stepW6 x s) := by
  unfold stepW6
  split
  · exact .fatal _
  · exact .goesOn (.goto hp ⟨nofun, rfl, rfl, rfl, id⟩ id)

/-- W7 waits while the card is busy, then the bracket closes (R225). -/
theorem stepW7_goesOn (hp : s.ioseq.pos = .w7) : GoesOn s (stepW7 s) := by
  simp only [stepW7]
  split <;> exact .xferGoto _ hp ⟨nofun, rfl, rfl, rfl, id⟩ id

/-- L2 clears the request (43_streaming.md R254). -/
theorem stepL2_goesOn (hp : s.ioseq.pos = .l2) : GoesOn s (stepL2 s) :=
  .move hp ⟨nofun, rfl, rfl, rfl, id⟩ ⟨rfl, rfl, rfl, id⟩ rfl rfl nofun

/-- L3 latches the buffer and calls READ_SECTOR (R254). -/
theorem stepL3_goesOn (hp : s.ioseq.pos = .l3) : GoesOn s (stepL3 s) :=
  .move hp ⟨nofun, rfl, rfl, rfl, id⟩ ⟨rfl, rfl, rfl, id⟩ rfl rfl nofun

/-- L5 goes on with the loop, or stops at the maximum (R254, R255). -/
theorem stepL5_effect (hp : s.ioseq.pos = .l5) : LineEffect s (stepL5 s) := by
  unfold stepL5
  split
  · exact .stops hp
  · exact .goesOn (.move hp ⟨nofun, rfl, rfl, rfl, id⟩ ⟨rfl, rfl, rfl, id⟩ rfl rfl nofun)

/-- A line of a command that does not stream, which does its work in `u` and ends. -/
theorem Ends.finish {u : State} (hp : s.ioseq.pos = p) (h1 : p.inPriming = false) (h2 : p.inRefillLoop = false)
    (hk : KeepsStream s u) : Ends s u.finishIo :=
  ⟨⟨hk.state, hk.irqEn, hk.halted, hk.lines⟩, rfl, rfl, hp ▸ h1, hp ▸ h2⟩

/-- Everything a step of IOSEQ can do to the sequencer, by its line. -/
theorem ioStep_effect (hidle : s.ioseq.pos ≠ .idle) : LineEffect s (ioStep s) := by
  cases hp : s.ioseq.pos <;> simp only [ioStep, hp]
  case idle => exact absurd hp hidle
  case xpt1 => exact .ends (.finish hp rfl rfl ⟨rfl, rfl, rfl, fun _ => linesAtRest_xfer _ s⟩)
  case i1cs => exact .goesOn (.setCsGoto _ hp ⟨nofun, rfl, rfl, rfl, fun _ => rfl⟩ nofun)
  case i1clk => exact .goesOn (stepI1Clk_goesOn hp)
  case send => exact .goesOn (stepSend_goesOn hp)
  case test => exact stepTest_effect hp
  case i3trail => exact .goesOn (stepI3Trail_goesOn hp)
  case close => exact .goesOn (stepClose_goesOn hp)
  case initReturn => exact .ends (.finish hp rfl rfl ⟨rfl, rfl, rfl, id⟩)
  case rd1 => exact .goesOn (.xferGoto _ hp ⟨nofun, rfl, rfl, rfl, id⟩ nofun)
  case rd3 => exact .goesOn (stepRd3_goesOn hp)
  case rd4 => exact .goesOn (stepRd4_goesOn hp)
  case rd5 => exact .goesOn (stepRd5_goesOn hp)
  case readReturn => exact .ends (.finish hp rfl rfl ⟨rfl, rfl, rfl, id⟩)
  case w1 => exact .goesOn (.xferGoto _ hp ⟨nofun, rfl, rfl, rfl, id⟩ nofun)
  case w3 => exact .goesOn (.xferGoto _ hp ⟨nofun, rfl, rfl, rfl, id⟩ id)
  case w4 => exact .goesOn (stepW4_goesOn hp)
  case w5 => exact .goesOn (stepW5_goesOn hp)
  case w6 => exact stepW6_effect hp
  case w7 => exact .goesOn (stepW7_goesOn hp)
  case writeReturn => exact .ends (.finish hp rfl rfl ⟨rfl, rfl, rfl, id⟩)
  case p3 => exact .streams hp
  case l1 => exact .goesOn (.goto hp ⟨nofun, rfl, rfl, rfl, id⟩ nofun)
  case l2 => exact .goesOn (stepL2_goesOn hp)
  case l3 => exact .goesOn (stepL3_goesOn hp)
  case l5 => exact stepL5_effect hp

end

/-! ## The sequencer's invariant -/

section
variable {s t : State}

/-- `t` has of `s` all that the sequencer's invariant reads; CS_N may differ outside a bracket. -/
structure SameControl (s t : State) : Prop where
  ioseq : t.ioseq = s.ioseq
  session : t.session = s.session
  state : t.str.state = s.str.state
  irqEn : t.str.irqEn = s.str.irqEn
  halted : t.halted = s.halted
  select : s.ioseq.pos.inBracket = true → t.xpt.csN = s.xpt.csN

theorem SameControl.keeps (h : SameControl s t) (hi : sequencerInvariant s) : sequencerInvariant t := by
  obtain ⟨hbusy, hinit, hcount, hdrain, hstream, hselect⟩ := hi
  refine ⟨?_, ?_, ?_, ?_, ?_, ?_⟩
  · simpa only [ioBusyWhileRunning, h.ioseq] using hbusy
  · simpa only [initRunsUninitialized, h.ioseq, h.session] using hinit
  · simpa only [loopCountersFit, h.ioseq] using hcount
  · simpa only [drainOnlyWhileActive, h.irqEn, h.state, h.halted] using hdrain
  · simpa only [streamFollowsSequencer, h.ioseq, h.state, h.halted] using hstream
  · intro hb
    rw [h.ioseq] at hb
    rw [h.select hb, hselect hb]

theorem GoesOn.keeps (h : GoesOn s t) (hidle : s.ioseq.pos ≠ .idle) (hi : sequencerInvariant s) :
    sequencerInvariant t := by
  obtain ⟨hbusy, hinit, hcount, hdrain, hstream, hselect⟩ := hi
  refine ⟨?_, ?_, h.line.counters hcount, ?_, ?_, ?_⟩
  · exact iff_of_true (h.busy.trans (hbusy.2 hidle)) h.line.runs
  · rwa [initRunsUninitialized, h.session, h.line.init]
  · rwa [drainOnlyWhileActive, h.irqEn, h.state, h.halted]
  · rwa [streamFollowsSequencer, h.halted, h.state, h.line.priming, h.line.refill]
  · intro hb
    rcases h.select hb with hcs | ⟨hb', hcs⟩
    · exact hcs
    · exact hcs.trans (hselect hb')

/-- What the invariant asks of a state in which IOSEQ runs nothing. -/
theorem sequencerInvariant_of_idle (hb : t.ioseq.busy = false) (hp : t.ioseq.pos = .idle)
    (hd : drainOnlyWhileActive t) (hs : t.halted = false → t.str.state ≠ .priming ∧ t.str.state ≠ .active) :
    sequencerInvariant t := by
  refine ⟨?_, ?_, ?_, hd, fun hh => ?_, ?_⟩
  · simp [ioBusyWhileRunning, hb, hp]
  · simp [initRunsUninitialized, hp, IoPos.inInit]
  · simp [loopCountersFit, hp, IoPos.countersFit]
  · obtain ⟨h1, h2⟩ := hs hh
    rw [hp]
    exact ⟨iff_of_false h1 nofun, iff_of_false h2 nofun⟩
  · simp [selectedInsideBracket, hp, inBracket_idle]

theorem Ends.keeps (h : Ends s t) (hi : sequencerInvariant s) : sequencerInvariant t := by
  obtain ⟨-, -, -, hdrain, hstream, -⟩ := hi
  refine sequencerInvariant_of_idle h.busy h.idle (by rwa [drainOnlyWhileActive, h.irqEn, h.state, h.halted])
    fun hh => ?_
  obtain ⟨hprime, hactive⟩ := hstream (h.halted ▸ hh)
  rw [h.state]
  exact ⟨fun e => by simpa [h.notPriming] using hprime.1 e, fun e => by simpa [h.notRefill] using hactive.1 e⟩

theorem raiseFatal_sequencer (c : FatalCode) (s : State) : sequencerInvariant (raiseFatal c s) :=
  sequencerInvariant_of_idle rfl rfl (by simp [drainOnlyWhileActive]) (by simp)

theorem resetEvent_sequencer (s : State) : sequencerInvariant (resetEvent s) :=
  sequencerInvariant_of_idle rfl rfl (by simp [drainOnlyWhileActive, State.reset, Str.reset])
    (by simp [State.reset, Str.reset])

/-- P3 starts the drain and the refill loop (43_streaming.md R252). -/
theorem stepP3_sequencer (hh : s.halted = false) (hb : s.ioseq.busy = true) : sequencerInvariant (stepP3 s) := by
  refine ⟨?_, ?_, rfl, ?_, fun _ => ⟨?_, ?_⟩, ?_⟩
  · simp [ioBusyWhileRunning, stepP3, hb]
  · simp [initRunsUninitialized, stepP3, IoPos.inInit]
  · simp [drainOnlyWhileActive, stepP3, hh]
  · simp [stepP3, IoPos.inPriming, IoPos.inReadFor]
  · simp [stepP3, IoPos.inRefillLoop, IoPos.inReadFor]
  · exact fun hb => (Bool.false_ne_true hb).elim

theorem LineEffect.keeps (h : LineEffect s t) (hhalted : s.halted = false) (hidle : s.ioseq.pos ≠ .idle)
    (hi : sequencerInvariant s) : sequencerInvariant t := by
  obtain ⟨hbusy, -⟩ := id hi
  cases h with
  | goesOn h => exact h.keeps hidle hi
  | ends h => exact h.keeps hi
  | fatal c => exact raiseFatal_sequencer c s
  | streams _ => exact stepP3_sequencer hhalted (hbusy.2 hidle)
  | stops _ => exact sequencerInvariant_of_idle rfl rfl (by simp [drainOnlyWhileActive]) (by simp)

/-- IOSEQ has a step only in a block that is not halted and while a procedure runs (10_state.md R42). -/
theorem ioEnabled_running (h : ioEnabled s = true) : s.halted = false ∧ s.ioseq.pos ≠ .idle := by
  simp only [ioEnabled, Bool.and_eq_true, Bool.not_eq_true', bne_iff_ne] at h
  exact h.1

/-! ## Commands -/

/-- While IOSEQ runs nothing in a block that is not halted, no stream runs. -/
theorem sequencer_idle (hi : sequencerInvariant s) (hh : s.halted = false) (hb : s.ioseq.busy = false) :
    s.ioseq.pos = .idle ∧ s.str.state ≠ .priming ∧ s.str.state ≠ .active := by
  obtain ⟨hbusy, -, -, -, hstream, -⟩ := hi
  have hp : s.ioseq.pos = .idle := by
    by_contra hne
    simp [hbusy.2 hne] at hb
  obtain ⟨hprime, hactive⟩ := hstream hh
  rw [hp] at hprime hactive
  exact ⟨hp, fun e => (nomatch hprime.1 e), fun e => (nomatch hactive.1 e)⟩

/-- What the invariant asks of a state in which a procedure has just started at `p`. -/
theorem sequencerInvariant_of_started {p : IoPos} (hb : t.ioseq.busy = true) (hp : t.ioseq.pos = p)
    (hne : p ≠ .idle) (hinit : p.inInit = true → t.session = .uninitialized) (hcount : p.countersFit = true)
    (hd : drainOnlyWhileActive t)
    (hs : t.halted = false →
      (t.str.state = .priming ↔ p.inPriming = true) ∧ (t.str.state = .active ↔ p.inRefillLoop = true))
    (hsel : p.inBracket = false) : sequencerInvariant t := by
  subst hp
  exact ⟨iff_of_true hb hne, hinit, hcount, hd, hs, fun h => by simp [hsel] at h⟩

/-- A MOD command does not touch the sequencer. -/
theorem actOf_mod_sameControl {i : Instr} (hu : i.unit = .mod) (s : State) :
    SameControl s (actOf i s (s.withErr .ok)) := by
  cases i with
  | modInit | modPrime | modSample | modStep | modEnd => exact ⟨rfl, rfl, rfl, rfl, rfl, fun _ => rfl⟩
  | _ => nomatch hu

/-- An accepted IO command keeps the invariant: it changes CS_N or MAX with no procedure running, or starts one. -/
theorem actOf_io_sequencer {i : Instr} (hi : sequencerInvariant s) (hh : s.halted = false)
    (hb : s.ioseq.busy = false) (hu : i.unit = .io) : sequencerInvariant (actOf i s (s.withErr .ok)) := by
  obtain ⟨hp, hnp, hna⟩ := sequencer_idle hi hh hb
  obtain ⟨-, -, -, hdrain, -, -⟩ := id hi
  have quiet : s.halted = false →
      (s.str.state = .priming ↔ false = true) ∧ (s.str.state = .active ↔ false = true) :=
    fun _ => ⟨iff_of_false hnp nofun, iff_of_false hna nofun⟩
  cases i with
  | modInit | modPrime | modSample | modStep | modEnd => nomatch hu
  | xptCs c =>
    exact SameControl.keeps (s := s) ⟨rfl, rfl, rfl, rfl, rfl, by simp [hp, inBracket_idle]⟩ hi
  | strCfg => exact SameControl.keeps ⟨rfl, rfl, rfl, rfl, rfl, fun _ => rfl⟩ hi
  | xptXfer x => exact sequencerInvariant_of_started rfl rfl nofun nofun rfl hdrain quiet rfl
  | bscInit => exact sequencerInvariant_of_started rfl rfl nofun (fun _ => rfl) rfl hdrain quiet rfl
  | bscRead d => exact sequencerInvariant_of_started rfl rfl nofun nofun rfl hdrain quiet rfl
  | bscWrite d => exact sequencerInvariant_of_started rfl rfl nofun nofun rfl hdrain quiet rfl
  | strStart =>
    have off : drainOnlyWhileActive (acceptStrStart (s.withErr .ok)) := by
      simp [drainOnlyWhileActive, acceptStrStart]
    exact sequencerInvariant_of_started rfl rfl nofun nofun rfl off
      (fun _ => ⟨iff_of_true rfl rfl, iff_of_false nofun nofun⟩) rfl

/-- An accepted command keeps the sequencer's invariant. -/
theorem actOf_sequencer {i : Instr} (hi : sequencerInvariant s)
    (hv : verdict i.unit (preOf i s) (argOf i s) s = .ok) : sequencerInvariant (actOf i s (s.withErr .ok)) := by
  obtain ⟨hh, hb, -⟩ := (verdict_eq_ok _ _ _ _).1 hv
  cases hu : i.unit with
  | mod => exact (actOf_mod_sameControl hu s).keeps hi
  | io =>
    rw [hu] at hb
    exact actOf_io_sequencer hi hh hb hu

end

/-! ## Steps -/

theorem takeTurn_sameControl (s : State) : SameControl s s.takeTurn := ⟨rfl, rfl, rfl, rfl, rfl, fun _ => rfl⟩

theorem drainStep_sameControl (s : State) : SameControl s (drainStep s) := by
  obtain ⟨-, hxpt, hsession, hio, -, -, -, hhalted, -⟩ := drainStep_frame s
  have hstr : (drainStep s).str.state = s.str.state ∧ (drainStep s).str.irqEn = s.str.irqEn := by
    by_cases h : s.str.cursor = 511
    · rw [(drainStep_swap h).1]; exact ⟨rfl, rfl⟩
    · rw [(drainStep_advance h).1]; exact ⟨rfl, rfl⟩
  exact ⟨hio, hsession, hstr.1, hstr.2, hhalted, fun _ => by rw [hxpt]⟩

theorem deliver_sameControl (off : Offset) (bytes : Nat) (s : State) :
    SameControl s (deliver (busRead off bytes s)) := by
  obtain ⟨hstr, hio, hxpt, hsession, hhalted, -⟩ := deliver_frame off bytes s
  exact ⟨hio, hsession, by rw [hstr], by rw [hstr], hhalted, fun _ => by rw [hxpt]⟩

/-- Everything a step can do to the sequencer: a line of IOSEQ, an accepted command, the reset event, or nothing. -/
inductive ControlEffect (s : State) : State → Prop where
  | same {t : State} (h : SameControl s.takeTurn t) : ControlEffect s t
  | line {t : State} (hn : s.nextTurn = .ioseq) (hh : s.halted = false) (hidle : s.ioseq.pos ≠ .idle)
      (h : LineEffect s.takeTurn t) : ControlEffect s t
  | command (w : Word) (i : Instr) (hn : s.nextTurn = .host (.write 0x000 4 w)) (hd : decode w = .ok i)
      (hv : verdict i.unit (preOf i s.takeTurn) (argOf i s.takeTurn) s.takeTurn = .ok) :
      ControlEffect s (actOf i s.takeTurn (s.takeTurn.withErr .ok))
  | reset (hn : s.nextTurn = .rstN true) (hr : s.env.rstN = false) : ControlEffect s (resetEvent s.takeTurn)

/-- Everything a step can do to the sequencer, by whose turn it is. -/
theorem step_controlEffect {s t : State} (h : step s = .next t) : ControlEffect s t := by
  rcases step_cases h with ⟨level, hn, rfl⟩ | ⟨_, _, rfl⟩ | ⟨_, _, rfl⟩ | ⟨hn, he, rfl⟩ | ⟨_, _, rfl⟩ |
    ⟨off, bytes, _, rfl⟩ | ⟨off, bytes, v, hn, hw⟩ | rfl
  · rcases setRstN_cases level s.takeTurn with ⟨_, e⟩ | ⟨rfl, hr, e⟩ <;> rw [e]
    · exact .same ⟨rfl, rfl, rfl, rfl, rfl, fun _ => rfl⟩
    · exact .reset hn hr
  · exact .same ⟨rfl, rfl, rfl, rfl, rfl, fun _ => rfl⟩
  · exact .same ⟨rfl, rfl, rfl, rfl, rfl, fun _ => rfl⟩
  · obtain ⟨hh, hidle⟩ := ioEnabled_running he
    exact .line hn hh hidle (ioStep_effect hidle)
  · exact .same (drainStep_sameControl s.takeTurn)
  · exact .same (deliver_sameControl off bytes s.takeTurn)
  · rcases busWrite_next hw with ⟨rfl, rfl, i, hd, hv, rfl⟩ | ⟨_, _, e, rfl⟩ | rfl | ⟨_, _, _, rfl⟩ | rfl
    · exact .command v i hn hd hv
    all_goals exact .same ⟨rfl, rfl, rfl, rfl, rfl, fun _ => rfl⟩
  · exact .same ⟨rfl, rfl, rfl, rfl, rfl, fun _ => rfl⟩

/-- Settles O58, by what the step does to the sequencer. -/
theorem sequencerInvariantKept : Obligations.SequencerInvariantKept := by
  unfold Obligations.SequencerInvariantKept
  intro s t hi h
  cases step_controlEffect h with
  | same h => exact h.keeps ((takeTurn_sameControl s).keeps hi)
  | line hn hh hidle h => exact h.keeps hh hidle ((takeTurn_sameControl s).keeps hi)
  | command w i hn hd hv => exact actOf_sequencer ((takeTurn_sameControl s).keeps hi) hv
  | reset hn hr => exact resetEvent_sequencer s.takeTurn

/-! ## The transitions of STR_STATE -/

/-- STR_START, from IDLE, is the only command that writes STR_STATE (43_streaming.md R251). -/
theorem actOf_strState {i : Instr} {s : State} (hpre : preOf i s = true) (s' : State) :
    (i = .strStart ∧ s.str.state = .idle ∧ (actOf i s s').str.state = .priming) ∨
      (actOf i s s').str.state = s'.str.state := by
  cases i with
  | strStart =>
    have hidle : s.str.state = .idle := by
      simpa [preOf, streamIdle] using And.right (Bool.and_eq_true_iff.1 hpre)
    exact .inl ⟨rfl, hidle, rfl⟩
  | _ => exact .inr rfl

/-- A line of IOSEQ keeps STR_STATE, but for P3 and the stop at L5. -/
theorem LineEffect.strState {s t : State} (h : LineEffect s t) (hhalted : s.halted = false)
    (hstream : streamFollowsSequencer s) :
    t.str.state = s.str.state ∨
      (s.str.state = .priming ∧ t.str.state = .active ∧ s.ioseq.pos = .p3) ∨
      (s.str.state = .active ∧ t.str.state = .stopped ∧ s.ioseq.pos = .l5) := by
  obtain ⟨hprime, hactive⟩ := hstream hhalted
  cases h with
  | goesOn h => exact .inl h.state
  | ends h => exact .inl h.state
  | fatal c => exact .inl rfl
  | streams h => exact .inr (.inl ⟨hprime.2 (by rw [h]; rfl), rfl, h⟩)
  | stops h => exact .inr (.inr ⟨hactive.2 (by rw [h]; rfl), rfl, h⟩)

/-- Settles O44: the lines P3 and L5, STR_START and reset are the only writers. -/
theorem strStateTransitions : Obligations.StrStateTransitions := by
  unfold Obligations.StrStateTransitions
  intro s t hi h
  obtain ⟨-, -, -, -, hstream, -⟩ := hi
  cases step_controlEffect h with
  | same h => exact .inl h.state
  | line hn hh hidle h =>
    rcases h.strState hh hstream with e | ⟨h1, h2, hp⟩ | ⟨h1, h2, hp⟩
    · exact .inl e
    · exact .inr (.inr (.inl ⟨h1, h2, hn, hp⟩))
    · exact .inr (.inr (.inr (.inl ⟨h1, h2, hn, hp⟩)))
  | command w i hn hd hv =>
    obtain ⟨-, -, -, hpre, -⟩ := (verdict_eq_ok _ _ _ _).1 hv
    rcases actOf_strState hpre (s.takeTurn.withErr .ok) with ⟨rfl, h1, h2⟩ | e
    · have hword : w = 0x00000041 := (encode_of_decode hd).1.symm
      exact .inr (.inl ⟨h1, h2, hword ▸ hn⟩)
    · exact .inl e
  | reset hn hr => exact .inr (.inr (.inr (.inr ⟨rfl, hn, hr⟩)))

end Sys2Proof.Machine
end

section
/-! SUPPORT. Everything a step can do to MOD (10_state.md R32 to R38), said once, and from it the statements about A
and B, OVF, MOD_PHASE and the running command. -/

namespace Sys2Proof.Machine

/-- MOD has a step only while it is busy, not halted and not held (40_modulator.md R151). -/
theorem modEnabled_iff (s : State) :
    modEnabled s = true ↔ s.mod.busy = true ∧ s.halted = false ∧ s.mod.held = false := by
  simp [modEnabled, and_assoc]

/-- Everything a step can do to MOD: MOD's own step, a command, the stop of a fatal error, the reset event; else at
most a pop of MQ. -/
inductive ModEffect (s t : State) : Prop where
  | keeps (q : List Byte) (h : t.mod = { s.mod with mq := q })
  | advances (hn : s.nextTurn = .mod) (hb : s.mod.busy = true) (hh : s.halted = false)
      (h : t.mod = s.mod.advance Config.modPolarity)
  | stopped (h : t.mod = { s.mod with busy := false, kind := .none })
  | command (w : Word) (i : Instr) (hn : s.nextTurn = .host (.write 0x000 4 w)) (hd : decode w = .ok i)
      (hu : i.unit = .mod) (hb : s.mod.busy = false) (hpre : preOf i s = true) (harg : argOf i s = true)
      (h : t.mod = (actOf i s s).mod) (herr : t.err = .ok)
  | reset (hn : s.nextTurn = .rstN true) (hr : s.env.rstN = false) (h : t.mod = Mod.reset)

/-- An IO command leaves MOD alone. -/
theorem actOf_io_mod {i : Instr} (hu : i.unit = .io) (s0 s : State) : (actOf i s0 s).mod = s.mod := by
  cases i with
  | modInit | modPrime | modSample | modStep | modEnd => nomatch hu
  | _ => rfl

/-- An accepted command leaves ERR at OK. -/
theorem actOf_err (i : Instr) (s0 s : State) : (actOf i s0 s).err = s.err := by
  cases i <;> rfl

/-- What a command checks and does to MOD is that of the state before its turn was taken. -/
theorem preOf_takeTurn (i : Instr) (s : State) : preOf i s.takeTurn = preOf i s := by
  cases i <;> rfl

theorem argOf_takeTurn (i : Instr) (s : State) : argOf i s.takeTurn = argOf i s := by
  cases i <;> rfl

theorem actOf_takeTurn_mod (i : Instr) (s : State) :
    (actOf i s.takeTurn (s.takeTurn.withErr .ok)).mod = (actOf i s s).mod := by
  cases i <;> rfl

/-- Everything a step can do to MOD, by whose turn it is. -/
theorem step_modEffect {s t : State} (h : step s = .next t) : ModEffect s t := by
  rcases step_cases h with ⟨level, hn, rfl⟩ | ⟨_, _, rfl⟩ | ⟨hn, he, rfl⟩ | ⟨_, he, rfl⟩ | ⟨_, _, rfl⟩ |
    ⟨off, bytes, _, rfl⟩ | ⟨off, bytes, v, hn, hw⟩ | rfl
  · rcases setRstN_cases level s.takeTurn with ⟨_, e⟩ | ⟨rfl, hr, e⟩ <;> rw [e]
    · exact .keeps _ rfl
    · exact .reset hn hr rfl
  · exact .keeps _ rfl
  · obtain ⟨hb, hh, -⟩ := (modEnabled_iff _).1 he
    exact .advances hn hb hh rfl
  · rcases ioStep_fatal s.takeTurn with ⟨c, -, -, e⟩ | ⟨-, -, e⟩
    · exact .stopped (by rw [e]; rfl)
    · exact .keeps _ e
  · exact .keeps _ (drainStep_frame _).1
  · rcases deliver_mod off bytes s.takeTurn with e | ⟨_, q, _, e⟩
    · exact .keeps _ e
    · exact .keeps q e
  · rcases busWrite_next hw with ⟨rfl, rfl, i, hd, hv, rfl⟩ | ⟨_, _, e, rfl⟩ | rfl | ⟨_, _, _, rfl⟩ | rfl
    · obtain ⟨_, hb, _, hpre, harg⟩ := (verdict_eq_ok _ _ _ _).1 hv
      rw [preOf_takeTurn] at hpre
      rw [argOf_takeTurn] at harg
      cases hu : i.unit with
      | mod =>
        rw [hu] at hb
        exact .command v i hn hd hu hb hpre harg (actOf_takeTurn_mod i s) (actOf_err i _ _)
      | io => exact .keeps _ (actOf_io_mod hu _ _)
    all_goals exact .keeps _ rfl
  · exact .keeps _ rfl

/-! ## A, B and OVF -/

/-- MOD_INIT is the only command that writes A, B and OVF (40_modulator.md R141). -/
theorem actOf_acc (i : Instr) (s0 s : State) :
    (∃ r ssel, i = .modInit r ssel) ∨
      ((actOf i s0 s).mod.a = s.mod.a ∧ (actOf i s0 s).mod.b = s.mod.b ∧
        (actOf i s0 s).mod.ovf = s.mod.ovf) := by
  cases i with
  | modInit r ssel => exact .inl ⟨r, ssel, rfl⟩
  | _ => exact .inr ⟨rfl, rfl, rfl⟩

/-- Settles O25: MOD's step, MOD_INIT and reset are the only writers. -/
theorem accumulatorWriters : Obligations.AccumulatorWriters := by
  unfold Obligations.AccumulatorWriters
  intro s t h
  cases step_modEffect h with
  | keeps q h => exact .inl (by rw [h]; exact ⟨rfl, rfl⟩)
  | advances hn hb hh h =>
    obtain ⟨ha, hb', -⟩ := advance_acc Config.modPolarity s.mod
    exact .inr (.inl ⟨hn, hb, hh, by rw [h, ha], by rw [h, hb']⟩)
  | stopped h => exact .inl (by rw [h]; exact ⟨rfl, rfl⟩)
  | command w i hn hd hu hb hpre harg h herr =>
    rw [h]
    rcases actOf_acc i s s with ⟨r, ssel, rfl⟩ | ⟨ha, hb', -⟩
    · exact .inr (.inr ⟨rfl, rfl, .inl ⟨w, r, ssel, hn, hd⟩⟩)
    · exact .inl ⟨ha, hb'⟩
  | reset hn hr h => exact .inr (.inr ⟨by rw [h]; rfl, by rw [h]; rfl, .inr hn⟩)

/-- A step of MOD sets OVF where an update does not fit, and never clears it (R148). -/
theorem advance_ovf (pol : Polarity) (m : Mod) :
    (m.advance pol).ovf = (m.ovf || (accStep pol m.a m.b m.curS.toInt).overflow) :=
  (advance_acc pol m).2.2

/-- Settles O26: each cause of a change of OVF, and the step that sets it. -/
theorem ovfIsSticky : Obligations.OvfIsSticky := by
  unfold Obligations.OvfIsSticky
  refine ⟨fun s t h h1 h0 => ?_, fun s t h h0 h1 => ?_, fun s hb hh hheld hov => ?_, rfl⟩
  · cases step_modEffect h with
    | keeps q h => rw [h] at h0; simp [h1] at h0
    | advances hn hb hh h => rw [h, advance_ovf, h1] at h0; nomatch h0
    | stopped h => rw [h] at h0; simp [h1] at h0
    | command w i hn hd hu hb hpre harg h herr =>
      rcases actOf_acc i s s with ⟨r, ssel, rfl⟩ | ⟨-, -, e⟩
      · exact .inl ⟨w, r, ssel, hn, hd, herr⟩
      · rw [h, e, h1] at h0; nomatch h0
    | reset hn hr h => exact .inr ⟨hn, hr⟩
  · cases step_modEffect h with
    | keeps q h => rw [h] at h1; simp [h0] at h1
    | advances hn hb hh h => rw [h, advance_ovf, h0] at h1; exact ⟨hn, h1⟩
    | stopped h => rw [h] at h1; simp [h0] at h1
    | command w i hn hd hu hb hpre harg h herr =>
      rcases actOf_acc i s s with ⟨r, ssel, rfl⟩ | ⟨-, -, e⟩
      · rw [h] at h1; nomatch h1
      · rw [h, e, h0] at h1; nomatch h1
    | reset hn hr h => rw [h] at h1; nomatch h1
  · have he : modEnabled s = true := (modEnabled_iff s).2 ⟨hb, hh, hheld⟩
    rw [modAgent, if_pos he, State.withMod_mod, advance_ovf, hov, Bool.or_true]

/-! ## MOD_PHASE -/

/-- What MOD_PHASE's commands need and leave (R141, R145); the others leave it alone. -/
theorem actOf_phase {i : Instr} {s : State} (hu : i.unit = .mod) (hpre : preOf i s = true) (s' : State) :
    (∃ r ssel, i = .modInit r ssel ∧ (actOf i s s').mod.phase = .configured) ∨
      (i = .modEnd ∧ (s.mod.phase = .configured ∨ s.mod.phase = .primed) ∧
        (actOf i s s').mod.phase = .ended) ∨
      (actOf i s s').mod.phase = s'.mod.phase := by
  cases i with
  | modInit r ssel => exact .inl ⟨r, ssel, rfl, rfl⟩
  | modEnd =>
    have hp : s.mod.phase = .configured ∨ s.mod.phase = .primed := by
      simpa [preOf, configuredOrPrimed] using hpre
    exact .inr (.inl ⟨rfl, hp, rfl⟩)
  | modPrime | modSample | modStep => exact .inr (.inr rfl)
  | _ => nomatch hu

/-- MOD's step leaves the phase alone, but for the end of MOD_PRIME (R151). -/
theorem advance_phase (pol : Polarity) (m : Mod) :
    (m.advance pol).phase = m.phase ∨
      (m.kind = .prime ∧ (m.advance pol).phase = .primed ∧ (m.advance pol).busy = false) := by
  obtain ⟨-, -, hphase, -⟩ := internalStep_frame pol m.curS.toInt m.curE m
  rcases advance_cases pol m with ⟨-, e⟩ | ⟨-, e⟩ <;> rw [e]
  · exact .inl hphase
  · by_cases hk : m.kind = .prime
    · exact .inr ⟨hk, if_pos hk, rfl⟩
    · exact .inl (if_neg hk)

/-- Settles O28, by what the step does to MOD. -/
theorem modPhaseTransitions : Obligations.ModPhaseTransitions := by
  unfold Obligations.ModPhaseTransitions
  intro s t hfit h
  cases step_modEffect h with
  | keeps q h => exact .inl (by rw [h])
  | advances hn hb hh h =>
    rw [h]
    rcases advance_phase Config.modPolarity s.mod with e | ⟨hk, hp, hb'⟩
    · exact .inl e
    · exact .inr (.inr (.inl ⟨(hfit.1 hk).1, hp, hn, hk, hb'⟩))
  | stopped h => exact .inl (by rw [h])
  | command w i hn hd hu hb hpre harg h herr =>
    rw [h]
    rcases actOf_phase hu hpre s with ⟨r, ssel, rfl, e⟩ | ⟨rfl, hp, e⟩ | e
    · exact .inr (.inl ⟨e, w, r, ssel, hn, hd⟩)
    · have hword : w = 0x00000014 := (encode_of_decode hd).1.symm
      exact .inr (.inr (.inr (.inl ⟨hp, e, hword ▸ hn⟩)))
    · exact .inl e
  | reset hn hr h => exact .inr (.inr (.inr (.inr ⟨by rw [h]; rfl, hn, hr⟩)))

/-! ## The running command -/

/-- The invariant of O55, read of MOD alone. -/
structure ModSound (m : Mod) : Prop where
  busy : m.busy = true ↔ m.kind ≠ .none
  remain : m.busy = true → m.remain ≠ 0
  prime : m.kind = .prime → m.phase = .configured ∧ m.curE = false ∧ m.curS = 0
  sample : m.kind = .sample → m.phase = .primed ∧ m.curE = true
  step : m.kind = .step → m.phase = .configured ∨ m.phase = .primed
  ratio : m.phase ≠ .unconfig → m.r ≠ 0

theorem modSound_iff (s : State) :
    ModSound s.mod ↔
      modBusyWhileStepsRemain s ∧ modKindFitsPhase s ∧ (s.mod.phase ≠ .unconfig → s.mod.r ≠ 0) :=
  ⟨fun h => ⟨⟨h.busy, h.remain⟩, ⟨h.prime, h.sample, h.step⟩, h.ratio⟩,
    fun ⟨⟨hb, hr⟩, ⟨hp, hs, ht⟩, hratio⟩ => ⟨hb, hr, hp, hs, ht, hratio⟩⟩

/-- With no command in progress only MOD_R is at stake. -/
theorem ModSound.of_idle {m : Mod} (hb : m.busy = false) (hk : m.kind = .none)
    (hr : m.phase ≠ .unconfig → m.r ≠ 0) : ModSound m :=
  ⟨by simp [hb, hk], by simp [hb], by simp [hk], by simp [hk], by simp [hk], hr⟩

theorem modSound_reset : ModSound Mod.reset := .of_idle rfl rfl fun h => absurd rfl h

theorem ModSound.kind_of_idle {m : Mod} (h : ModSound m) (hb : m.busy = false) : m.kind = .none := by
  by_contra hk
  simp [h.busy.2 hk] at hb

/-- MOD's step keeps the command sound while steps remain, and ends it when none does (R151). -/
theorem ModSound.advance {m : Mod} (h : ModSound m) (pol : Polarity) : ModSound (m.advance pol) := by
  obtain ⟨hr, -, hphase, hbusy, hkind, -, hcurS, hcurE⟩ := internalStep_frame pol m.curS.toInt m.curE m
  rcases advance_cases pol m with ⟨hleft, e⟩ | ⟨-, e⟩ <;> rw [e]
  · exact {
      busy := by simpa [hbusy, hkind] using h.busy
      remain := fun _ => hleft
      prime := by simpa [hkind, hphase, hcurE, hcurS] using h.prime
      sample := by simpa [hkind, hphase, hcurE] using h.sample
      step := by simpa [hkind, hphase] using h.step
      ratio := by simpa [hphase, hr] using h.ratio }
  · refine .of_idle rfl rfl fun hp => ?_
    show (m.internalStep pol m.curS.toInt m.curE).r ≠ 0
    rw [hr]
    by_cases hk : m.kind = .prime
    · exact h.ratio (by simp [(h.prime hk).1])
    · exact h.ratio (by simpa [hk] using hp)

/-- A count that fits a word and is not 0 is not the word 0. -/
theorem ofNat_ne_zero_of_lt {w n : Nat} (h0 : n ≠ 0) (hn : n < 2 ^ w) : BitVec.ofNat w n ≠ 0 := by
  intro h
  have := congrArg BitVec.toNat h
  rw [BitVec.toNat_ofNat, Nat.mod_eq_of_lt hn] at this
  exact h0 (by simpa using this)

/-- S·R fits MOD_REMAIN and is not 0 (R142). -/
theorem primeSteps_ne_zero {m : Mod} (hr : m.r ≠ 0) : BitVec.ofNat 32 (primeSteps m) ≠ 0 := by
  have hpos : m.r.toNat ≠ 0 := fun h => hr (BitVec.eq_of_toNat_eq (by simpa using h))
  have hlt := m.r.isLt
  refine ofNat_ne_zero_of_lt ?_ ?_ <;> simp only [primeSteps, sampleRate] <;> split <;> omega

/-- 2·R fits MOD_REMAIN and is not 0 (R143). -/
theorem sampleSteps_ne_zero {m : Mod} (hr : m.r ≠ 0) : BitVec.ofNat 32 (sampleSteps m) ≠ 0 := by
  have hpos : m.r.toNat ≠ 0 := fun h => hr (BitVec.eq_of_toNat_eq (by simpa using h))
  have hlt := m.r.isLt
  refine ofNat_ne_zero_of_lt ?_ ?_ <;> simp only [sampleSteps] <;> omega

/-- An accepted MOD command starts soundly (R141 to R145). -/
theorem ModSound.command {s : State} {i : Instr} {w : Word} (h : ModSound s.mod) (hd : decode w = .ok i)
    (hu : i.unit = .mod) (hb : s.mod.busy = false) (hpre : preOf i s = true) (harg : argOf i s = true) :
    ModSound (actOf i s s).mod := by
  have hk := h.kind_of_idle hb
  cases i with
  | modInit r ssel =>
    have h1 : 1 ≤ r := of_decide_eq_true harg
    have h2 : r ≤ 65535 := ratio_of_decode hd
    exact .of_idle hb rfl fun _ => ofNat_ne_zero_of_lt (by omega) (by omega)
  | modPrime =>
    have hp : s.mod.phase = .configured := by simpa [preOf] using hpre
    have hr : s.mod.r ≠ 0 := h.ratio (by simp [hp])
    exact {
      busy := iff_of_true rfl nofun
      remain := fun _ => primeSteps_ne_zero hr
      prime := fun _ => ⟨hp, rfl, rfl⟩
      sample := nofun
      step := nofun
      ratio := fun _ => hr }
  | modSample smp =>
    have hp : s.mod.phase = .primed := by simpa [preOf] using hpre
    have hr : s.mod.r ≠ 0 := h.ratio (by simp [hp])
    exact {
      busy := iff_of_true rfl nofun
      remain := fun _ => sampleSteps_ne_zero hr
      prime := nofun
      sample := fun _ => ⟨hp, rfl⟩
      step := nofun
      ratio := fun _ => hr }
  | modStep smp e =>
    have hp : s.mod.phase = .configured ∨ s.mod.phase = .primed := by
      simpa [preOf, configuredOrPrimed] using hpre
    exact {
      busy := iff_of_true rfl nofun
      remain := fun _ => ofNat_ne_zero_of_lt Nat.one_ne_zero (by decide)
      prime := nofun
      sample := nofun
      step := fun _ => hp
      ratio := h.ratio }
  | modEnd =>
    have hp : s.mod.phase = .configured ∨ s.mod.phase = .primed := by
      simpa [preOf, configuredOrPrimed] using hpre
    exact .of_idle hb hk fun _ => h.ratio (by rcases hp with e | e <;> simp [e])
  | _ => nomatch hu

/-- Settles O55, by what the step does to MOD. -/
theorem modCommandKept : Obligations.ModCommandKept := by
  unfold Obligations.ModCommandKept
  intro s t hs h
  rw [← modSound_iff] at hs ⊢
  cases step_modEffect h with
  | keeps q h => rw [h]; exact ⟨hs.busy, hs.remain, hs.prime, hs.sample, hs.step, hs.ratio⟩
  | advances hn hb hh h => rw [h]; exact hs.advance Config.modPolarity
  | stopped h => rw [h]; exact .of_idle rfl rfl hs.ratio
  | command w i hn hd hu hb hpre harg h herr => rw [h]; exact hs.command hd hu hb hpre harg
  | reset hn hr h => rw [h]; exact modSound_reset

end Sys2Proof.Machine
end

section
/-! SUPPORT. The fatal latch, the quiet halt and the resting lines (10_state.md R46, 60_exceptions.md R285 to R287,
41_transport.md R196). -/

namespace Sys2Proof.Machine

/-- A line of IOSEQ leaves the card's lines at rest (41_transport.md R196). -/
theorem LineEffect.linesAtRest {s t : State} (h : LineEffect s t) (hs : linesAtRest s) : linesAtRest t := by
  cases h with
  | goesOn h => exact h.lines hs
  | ends h => exact h.lines hs
  | fatal | streams | stops => exact hs

/-- `t` has the latch of `s`; while halted no agent has started, and the lines rest if they did. -/
structure KeepsLatch (s t : State) : Prop where
  halted : t.halted = s.halted
  code : t.fatalCode = s.fatalCode
  quiet : s.halted = true → t.mod.busy = s.mod.busy ∧ t.ioseq = s.ioseq ∧ t.str.irqEn = s.str.irqEn
  lines : linesAtRest s → linesAtRest t

section
variable {s t : State}

theorem KeepsLatch.keeps (h : KeepsLatch s t) (hi : haltedIsQuiet s ∧ fatalLatch s ∧ linesAtRest s) :
    haltedIsQuiet t ∧ fatalLatch t ∧ linesAtRest t := by
  obtain ⟨hquiet, hlatch, hrest⟩ := hi
  refine ⟨fun hh => ?_, by rwa [fatalLatch, h.halted, h.code], h.lines hrest⟩
  rw [h.halted] at hh
  obtain ⟨hmod, hio, hirq⟩ := h.quiet hh
  rw [hmod, hio, hirq]
  exact hquiet hh

theorem raiseFatal_latch {c : FatalCode} (h0 : c ≠ .none) (h2 : c ≠ .readStartTokenMissing)
    (hrest : linesAtRest s) :
    haltedIsQuiet (raiseFatal c s) ∧ fatalLatch (raiseFatal c s) ∧ linesAtRest (raiseFatal c s) :=
  ⟨fun _ => ⟨rfl, rfl, rfl, rfl⟩, ⟨iff_of_true rfl h0, h2⟩, hrest⟩

theorem resetEvent_latch (s : State) :
    haltedIsQuiet (resetEvent s) ∧ fatalLatch (resetEvent s) ∧ linesAtRest (resetEvent s) :=
  ⟨nofun, ⟨iff_of_false nofun fun h => h rfl, nofun⟩, rfl, rfl, rfl⟩

/-- A step of IOSEQ raises a fatal error or keeps the latch (60_exceptions.md R286). -/
theorem ioStep_latch (he : ioEnabled s = true) (hi : haltedIsQuiet s ∧ fatalLatch s ∧ linesAtRest s) :
    haltedIsQuiet (ioStep s) ∧ fatalLatch (ioStep s) ∧ linesAtRest (ioStep s) := by
  obtain ⟨hhalted, hidle⟩ := ioEnabled_running he
  rcases ioStep_fatal s with ⟨c, h0, h2, e⟩ | ⟨hh, hc, -⟩
  · rw [e]
    exact raiseFatal_latch h0 h2 hi.2.2
  · exact KeepsLatch.keeps ⟨hh, hc, by simp [hhalted], (ioStep_effect hidle).linesAtRest⟩ hi

theorem drainStep_keepsLatch (he : drainEnabled s = true) : KeepsLatch s (drainStep s) := by
  obtain ⟨-, hxpt, -, -, -, -, -, hhalted, hcode⟩ := drainStep_frame s
  refine ⟨hhalted, hcode, fun hh => ?_, by simp [linesAtRest, hxpt]⟩
  simp [drainEnabled, hh] at he

theorem deliver_keepsLatch (off : Offset) (bytes : Nat) (s : State) :
    KeepsLatch s (deliver (busRead off bytes s)) := by
  obtain ⟨hstr, hio, hxpt, -, hhalted, hcode, -⟩ := deliver_frame off bytes s
  have hbusy : (deliver (busRead off bytes s)).mod.busy = s.mod.busy := by
    rcases deliver_mod off bytes s with e | ⟨_, _, _, e⟩ <;> rw [e]
  exact ⟨hhalted, hcode, fun _ => ⟨hbusy, hio, by rw [hstr]⟩, by simp [linesAtRest, hxpt]⟩

/-- A command is accepted only while the block is not halted, and none writes the latch. -/
theorem actOf_keepsLatch {i : Instr} (hh : s.halted = false) : KeepsLatch s (actOf i s (s.withErr .ok)) := by
  refine ⟨actOf_halted i s _, ?_, by simp [hh], ?_⟩
  · cases i <;> rfl
  · cases i <;> exact id

end

/-- Settles O57: a fatal error and the reset event set the latch afresh, every other step keeps it. -/
theorem fatalLatchKept : Obligations.FatalLatchKept := by
  unfold Obligations.FatalLatchKept
  intro s t hi h
  rcases step_cases h with ⟨level, _, rfl⟩ | ⟨_, _, rfl⟩ | ⟨_, he, rfl⟩ | ⟨_, he, rfl⟩ | ⟨_, he, rfl⟩ |
    ⟨off, bytes, _, rfl⟩ | ⟨off, bytes, v, _, hw⟩ | rfl
  · rcases setRstN_cases level s.takeTurn with ⟨_, e⟩ | ⟨_, _, e⟩ <;> rw [e]
    · exact hi
    · exact resetEvent_latch _
  · exact hi
  · have hh : s.halted = false := ((modEnabled_iff _).1 he).2.1
    exact KeepsLatch.keeps (s := s) ⟨rfl, rfl, by simp [hh], id⟩ hi
  · exact ioStep_latch he hi
  · exact (drainStep_keepsLatch he).keeps hi
  · exact (deliver_keepsLatch off bytes _).keeps hi
  · rcases busWrite_next hw with ⟨_, _, i, _, hv, rfl⟩ | ⟨_, _, e, rfl⟩ | rfl | ⟨_, _, _, rfl⟩ | rfl
    · exact (actOf_keepsLatch ((verdict_eq_ok _ _ _ _).1 hv).1).keeps hi
    all_goals exact hi
  · exact hi

end Sys2Proof.Machine
end

section
/-! SUPPORT. The words the registers show (10_state.md R51 to R61), who writes ERR (R45), and the invariants at
reset (R62). -/

namespace Sys2Proof.Machine

/-! ## Register words -/

/-- The number an appended word stands for. -/
theorem toNat_append_eq {m n : Nat} (x : BitVec m) (y : BitVec n) :
    (x ++ y).toNat = x.toNat * 2 ^ n + y.toNat := by
  rw [BitVec.toNat_append, ← Nat.shiftLeft_add_eq_or_of_lt y.isLt, Nat.shiftLeft_eq]

theorem rxdataWord_toNat (s : State) : (rxdataWord s).toNat = s.xpt.rxdata.toNat := by
  refine (toNat_append_eq 0#24 s.xpt.rxdata).trans ?_
  simp

theorem modcfgWord_toNat (s : State) :
    (modcfgWord s).toNat = s.mod.r.toNat + (if s.mod.ssel then 65536 else 0) := by
  refine (toNat_append_eq (0#15 ++ BitVec.ofBool s.mod.ssel) s.mod.r).trans ?_
  rw [toNat_append_eq]
  cases s.mod.ssel <;> simp [Nat.add_comm]

theorem packWord_toNat (s : State) : (packWord s).toNat = s.mod.pack.toNat + 256 * s.mod.nbits.val := by
  refine (toNat_append_eq (0#20 ++ BitVec.ofNat 4 s.mod.nbits.val) s.mod.pack).trans ?_
  rw [toNat_append_eq]
  have hn := s.mod.nbits.isLt
  simp
  omega

theorem modoutCountWord_toNat (s : State) : (modoutCountWord s).toNat = min s.mod.mq.length 4294967295 := by
  rw [modoutCountWord, BitVec.toNat_ofNat]
  omega

theorem cursorWord_toNat (s : State) : (cursorWord s).toNat = s.str.cursor.val := by
  have hc := s.str.cursor.isLt
  rw [cursorWord, BitVec.toNat_ofNat]
  omega

/-- Settles O47: the map finds each register, and its word is the number its rule gives. -/
theorem registerReads : Obligations.RegisterReads := by
  unfold Obligations.RegisterReads
  intro s
  exact ⟨rfl, rfl, rxdataWord_toNat s, rfl, rfl, rfl, modcfgWord_toNat s, rfl, packWord_toNat s, rfl,
    modoutCountWord_toNat s, rfl, rfl, rfl, cursorWord_toNat s, rfl, rfl, fun _ => rfl⟩

/-! ## STATUS -/

/-- STATUS with its width as the sum of its fields' widths, as the lemmas about appended words read it. -/
def statusFields (s : State) : BitVec (8 + 4 + 4 + 1 + 1 + 1 + 1 + 1 + 1 + 2 + 3 + 1 + 2 + 1 + 1) :=
  0#8 ++ s.err.code ++ s.fatalCode.code ++ 0#1 ++ BitVec.ofBool s.halted ++ BitVec.ofBool s.xpt.csN ++
    BitVec.ofNat 1 s.str.role.val ++ BitVec.ofBool s.str.refillReq ++ BitVec.ofBool s.str.irqEn ++
    s.str.state.code ++ s.session.code ++ BitVec.ofBool s.mod.ovf ++ s.mod.phase.code ++
    BitVec.ofBool s.ioseq.busy ++ BitVec.ofBool s.mod.busy

theorem statusWord_eq_statusFields (s : State) : statusWord s = statusFields s := rfl

/-- The flags of STATUS (R51). -/
theorem statusFields_flags (s : State) :
    (statusFields s).getLsbD 0 = s.mod.busy ∧ (statusFields s).getLsbD 1 = s.ioseq.busy ∧
    (statusFields s).getLsbD 4 = s.mod.ovf ∧ (statusFields s).getLsbD 10 = s.str.irqEn ∧
    (statusFields s).getLsbD 11 = s.str.refillReq ∧ ((statusFields s).getLsbD 12 = true ↔ s.str.role = 1) ∧
    (statusFields s).getLsbD 13 = s.xpt.csN ∧ (statusFields s).getLsbD 14 = s.halted ∧
    (statusFields s).getLsbD 15 = false := by
  have role : ∀ d : BufIdx, d.val % 2 = 1 ↔ d = 1 := by decide
  simp only [statusFields, BitVec.getLsbD_append]
  simpa using role s.str.role

/-- The coded fields of STATUS and its reserved byte (R51). -/
theorem statusFields_codes (s : State) :
    (statusFields s).extractLsb' 2 2 = s.mod.phase.code ∧ (statusFields s).extractLsb' 5 3 = s.session.code ∧
    (statusFields s).extractLsb' 8 2 = s.str.state.code ∧ (statusFields s).extractLsb' 16 4 = s.fatalCode.code ∧
    (statusFields s).extractLsb' 20 4 = s.err.code ∧ (statusFields s).extractLsb' 24 8 = 0 := by
  have whole {w : Nat} (x : BitVec w) : x.extractLsb' 0 w = x := BitVec.extractLsb'_eq_self
  unfold statusFields
  simp (disch := decide) only [BitVec.extractLsb'_append_eq_of_add_le, BitVec.extractLsb'_append_eq_of_le]
  exact ⟨whole _, whole _, whole _, whole _, whole _, whole _⟩

/-- Settles O48: the flags, the coded fields, and the codes by evaluation. -/
theorem statusBits : Obligations.StatusBits := by
  unfold Obligations.StatusBits
  refine ⟨fun s => ?_, by decide, rfl, rfl, rfl, rfl, rfl⟩
  obtain ⟨hmodBusy, hioBusy, hovf, hirqEn, hrefill, hrole, hcsN, hhalted, hzero⟩ := statusFields_flags s
  obtain ⟨hphase, hsession, hstate, hfatal, herr, hreserved⟩ := statusFields_codes s
  exact ⟨rfl, fun _ => rfl, hmodBusy, hioBusy, hphase, hovf, hsession, hstate, hirqEn, hrefill, hrole, hcsN, hhalted,
    hzero, hfatal, herr, hreserved⟩

/-! ## ERR -/

/-- Settles O51: only a CMD write, an access error and the reset event write ERR. -/
theorem errWriters : Obligations.ErrWriters := by
  unfold Obligations.ErrWriters
  intro s t h
  rcases step_cases h with ⟨level, hn, rfl⟩ | ⟨_, _, rfl⟩ | ⟨_, _, rfl⟩ | ⟨_, _, rfl⟩ | ⟨_, _, rfl⟩ |
    ⟨off, bytes, hn, rfl⟩ | ⟨off, bytes, v, hn, hw⟩ | rfl
  · rcases setRstN_cases level s.takeTurn with ⟨_, e⟩ | ⟨rfl, hr, e⟩ <;> rw [e]
    · exact .inl rfl
    · exact .inr (.inr (.inr ⟨rfl, hn, hr⟩))
  · exact .inl rfl
  · exact .inl rfl
  · obtain ⟨-, herr, -⟩ := ioStep_keeps s.takeTurn
    exact .inl herr
  · obtain ⟨-, -, -, -, -, -, herr, -⟩ := drainStep_frame s.takeTurn
    exact .inl herr
  · rcases deliver_err off bytes s.takeTurn with e | e
    · exact .inl e
    · exact .inr (.inr (.inl ⟨e, _, hn⟩))
  · rcases busWrite_next hw with ⟨rfl, rfl, _⟩ | ⟨rfl, rfl, _⟩ | rfl | ⟨_, _, _, rfl⟩ | rfl
    · exact .inr (.inl ⟨v, hn⟩)
    · exact .inr (.inl ⟨v, hn⟩)
    · exact .inl rfl
    · exact .inl rfl
    · exact .inr (.inr (.inl ⟨rfl, _, hn⟩))
  · exact .inl rfl

/-! ## The invariants at reset -/

/-- An empty queue is within its depth (40_modulator.md R150). -/
theorem queueWithinDepth_of_empty {s : State} (h : s.mod.mq = []) : queueWithinDepth s := by
  unfold queueWithinDepth
  split
  · trivial
  · simp [h]

/-- Settles O59, with the reset event's part of the proofs above. -/
theorem invariantsAtReset : Obligations.InvariantsAtReset := by
  unfold Obligations.InvariantsAtReset
  obtain ⟨hmodBusy, hmodKind, hratio⟩ := (modSound_iff State.reset).1 modSound_reset
  obtain ⟨hquiet, hlatch, hlines⟩ := resetEvent_latch State.reset
  exact ⟨Memory.wf_reset, nofun, hmodBusy, hmodKind, hratio, queueWithinDepth_of_empty rfl, hquiet, hlatch, hlines,
    resetEvent_sequencer State.reset⟩

end Sys2Proof.Machine
end

section
/-! SUPPORT. Everything a step can do to the buffer memory (10_state.md R48), said once, and from it the canonical
form. -/

namespace Sys2Proof.Machine

/-- No command writes a buffer cell. -/
theorem actOf_bufs (i : Instr) (s0 s : State) : (actOf i s0 s).bufs = s.bufs := by
  cases i <;> rfl

/-- Everything a step can do to the buffer memory: RD4 stores a byte (42_storage.md R222), HOST writes a word through
the open window (20_memory.md R86), the reset event forgets every cell; else nothing. -/
inductive MemoryEffect (s t : State) : Prop where
  | same (h : t.bufs = s.bufs)
  | sector (c : ReadFor) (i : SectorIdx) (hn : s.nextTurn = .ioseq) (hp : s.ioseq.pos = .rd4 c i)
      (h : t.bufs = Memory.write s.bufs (cellAddr (readBuf c s) i) (cardAnswer Config.fill s))
  | window (off : Offset) (bytes : Nat) (v : Word) (hn : s.nextTurn = .host (.write off bytes v))
      (hlow : 0x800 ≤ off.toNat) (hhigh : off.toNat + 3 < 0xC00) (hopen : windowOpen true s = true)
      (h : t.bufs = (writeWord off.toNat v s).bufs)
  | reset (hn : s.nextTurn = .rstN true) (hr : s.env.rstN = false) (h : t.bufs = State.reset.bufs)

/-- Everything a step can do to the buffer memory, by whose turn it is. -/
theorem step_memoryEffect {s t : State} (h : step s = .next t) : MemoryEffect s t := by
  rcases step_cases h with ⟨level, hn, rfl⟩ | ⟨_, _, rfl⟩ | ⟨_, _, rfl⟩ | ⟨hn, _, rfl⟩ | ⟨_, _, rfl⟩ |
    ⟨off, bytes, _, rfl⟩ | ⟨off, bytes, v, hn, hw⟩ | rfl
  · rcases setRstN_cases level s.takeTurn with ⟨_, e⟩ | ⟨rfl, hr, e⟩ <;> rw [e]
    · exact .same rfl
    · exact .reset hn hr rfl
  · exact .same rfl
  · exact .same rfl
  · rcases ioStep_bufs s.takeTurn with e | ⟨c, i, hp, e⟩
    · exact .same e
    · exact .sector c i hn hp e
  · obtain ⟨-, -, -, -, hbufs, -⟩ := drainStep_frame s.takeTurn
    exact .same hbufs
  · obtain ⟨-, -, -, -, -, -, hbufs, -⟩ := deliver_frame off bytes s.takeTurn
    exact .same hbufs
  · rcases busWrite_next hw with ⟨_, _, i, _, _, rfl⟩ | ⟨_, _, _, rfl⟩ | rfl | ⟨hlow, hhigh, ho, rfl⟩ | rfl
    · exact .same (actOf_bufs i _ _)
    · exact .same rfl
    · exact .same rfl
    · exact .window off bytes v hn hlow hhigh ho rfl
    · exact .same rfl
  · exact .same rfl

/-- A word written inside the window keeps the memory canonical. -/
theorem writeWord_wf {a : Nat} {s : State} (v : Word) (hm : Memory.wf s.bufs) (hlow : 0x800 ≤ a)
    (hhigh : a + 3 < 0xC00) : Memory.wf (writeWord a v s).bufs := by
  simp only [writeWord, State.writeCell_bufs]
  have h0 := Memory.wf_write _ a (v.extractLsb' 0 8) hm (by omega)
  have h1 := Memory.wf_write _ (a + 1) (v.extractLsb' 8 8) h0 (by omega)
  have h2 := Memory.wf_write _ (a + 2) (v.extractLsb' 16 8) h1 (by omega)
  exact Memory.wf_write _ (a + 3) (v.extractLsb' 24 8) h2 (by omega)

/-- Settles O53: every write the step can do lies inside the window, and a write inside it keeps the form. -/
theorem memoryCanonicalKept : Obligations.MemoryCanonicalKept := by
  unfold Obligations.MemoryCanonicalKept memoryCanonical
  intro s t hm h
  cases step_memoryEffect h with
  | same h => rwa [h]
  | sector c i _ _ h => rw [h]; exact Memory.wf_write _ _ _ hm (cellAddr_in_window _ _)
  | window off bytes v _ hlow hhigh _ h => rw [h]; exact writeWord_wf v hm hlow hhigh
  | reset _ _ h => rw [h]; exact Memory.wf_reset

end Sys2Proof.Machine
end

section
/-! SUPPORT. HOST's accesses to the buffer window (20_memory.md R83, R86) and access errors (R85). -/

namespace Sys2Proof.Machine

/-! ## A word of four cells -/

/-- The cells of a word just written (R83). -/
theorem read_writeWord_same (a : Nat) (v : Word) (s : State) {j : Nat} (hj : j < 4) :
    Memory.read (writeWord a v s).bufs (a + j) = some (v.extractLsb' (8 * j) 8) := by
  simp only [writeWord, State.writeCell_bufs]
  match j, hj with
  | 0, _ | 1, _ | 2, _ | 3, _ => simp [Memory.read_write_other]

/-- A write of a word leaves every other cell alone. -/
theorem read_writeWord_other {a x : Nat} (v : Word) (s : State) (h : x < a ∨ a + 4 ≤ x) :
    Memory.read (writeWord a v s).bufs x = Memory.read s.bufs x := by
  simp (disch := omega) only [writeWord, State.writeCell_bufs, Memory.read_write_other]

/-- A write of a word changes the buffer memory alone. -/
theorem writeWord_frame (a : Nat) (v : Word) (s : State) :
    writeWord a v s = { s with bufs := (writeWord a v s).bufs } := rfl

/-- A word is its four bytes. -/
theorem word_eq_bytes (v : Word) :
    v.extractLsb' 24 8 ++ v.extractLsb' 16 8 ++ v.extractLsb' 8 8 ++ v.extractLsb' 0 8 = v := by
  simp (disch := decide) only [BitVec.extractLsb'_append_extractLsb'_eq_extractLsb']
  exact BitVec.extractLsb'_eq_self

/-- A word just written reads back (R83). -/
theorem readWord_writeWord (a : Nat) (v : Word) (s : State) :
    readWord a (writeWord a v s) = (v, writeWord a v s) := by
  have cell (j : Nat) (hj : j < 4) := read_writeWord_same a v s hj
  calc readWord a (writeWord a v s)
    _ = (v.extractLsb' 24 8 ++ v.extractLsb' 16 8 ++ v.extractLsb' 8 8 ++ v.extractLsb' 0 8, writeWord a v s) :=
      readWord_written (cell 0 (by decide)) (cell 1 (by decide)) (cell 2 (by decide)) (cell 3 (by decide))
    _ = (v, writeWord a v s) := by rw [word_eq_bytes]

/-! ## The window -/

/-- When the window is open (R86). -/
theorem windowOpen_iff (isWrite : Bool) (s : State) :
    windowOpen isWrite s = true ↔
      s.ioseq.busy = false ∧ (s.str.state = .idle ∨ s.str.state = .stopped) ∧
        (isWrite = true → s.halted = false) := by
  cases isWrite <;> simp [windowOpen, and_assoc]

/-- Above the registers stands the window, and beside it nothing (R81). -/
theorem locate_above_registers {off : Offset} (h : 0x038 ≤ off.toNat) :
    locate off = if 0x800 ≤ off.toNat ∧ off.toNat < 0xC00 then .window off.toNat else .unmapped := by
  have ne (r : Offset) (hr : r.toNat < 0x038) : (off = r) = False := eq_false (by rintro rfl; omega)
  simp (disch := decide) only [locate, ne, if_false]

theorem aligned_iff (off : Offset) (bytes : Nat) : aligned off bytes = true ↔ bytes = 4 ∧ off.toNat % 4 = 0 := by
  simp [aligned]

/-- A read of a window word while the window is open. -/
theorem busRead_window {off : Offset} {s : State} (hlow : 0x800 ≤ off.toNat) (hhigh : off.toNat < 0xC00)
    (h4 : off.toNat % 4 = 0) (ho : windowOpen false s = true) : busRead off 4 s = readWord off.toNat s := by
  rw [busRead, if_pos ((aligned_iff _ _).2 ⟨rfl, h4⟩), locate_above_registers (by omega), if_pos ⟨hlow, hhigh⟩,
    readLoc, if_pos ho]

/-- A write of a window word while the window is open. -/
theorem busWrite_window {off : Offset} {v : Word} {s : State} (hlow : 0x800 ≤ off.toNat)
    (hhigh : off.toNat < 0xC00) (h4 : off.toNat % 4 = 0) (ho : windowOpen true s = true) :
    busWrite off 4 v s = .next (writeWord off.toNat v s) := by
  rw [busWrite, if_pos ((aligned_iff _ _).2 ⟨rfl, h4⟩), locate_above_registers (by omega), if_pos ⟨hlow, hhigh⟩,
    writeLoc, if_pos ho]

/-- The cell of a byte of a window word (R86). -/
theorem cellAddr_of_word {off : Offset} {d : BufIdx} {k : Fin 128} {i : SectorIdx} {j : Nat}
    (hoff : off.toNat = 0x800 + 512 * d.val + 4 * k.val) (hi : i.val = 4 * k.val + j) :
    cellAddr d i = off.toNat + j := by
  unfold cellAddr
  omega

/-- Settles O45: a word just written reads back, and an open window word is its four cells. -/
theorem windowWriteReadsBack : Obligations.WindowWriteReadsBack := by
  unfold Obligations.WindowWriteReadsBack
  intro s d k off hoff hbusy hstate
  have hlow : 0x800 ≤ off.toNat := by omega
  have hhigh : off.toNat < 0xC00 := by omega
  have h4 : off.toNat % 4 = 0 := by omega
  have hread : windowOpen false s = true := (windowOpen_iff _ _).2 ⟨hbusy, hstate, nofun⟩
  refine ⟨fun hhalted v => ⟨(writeWord off.toNat v s).bufs, ?write, fun j i hj hi => ?cells, fun a ha => ?others,
    ?back⟩, fun b hb => ?read⟩
  case write =>
    rw [← writeWord_frame]
    exact busWrite_window hlow hhigh h4 ((windowOpen_iff _ _).2 ⟨hbusy, hstate, fun _ => hhalted⟩)
  case cells => rw [cellAddr_of_word hoff hi]; exact read_writeWord_same _ v s hj
  case others => exact read_writeWord_other v s ha
  case back =>
    have hreadBack : windowOpen false (writeWord off.toNat v s) = true :=
      (windowOpen_iff _ _).2 ⟨hbusy, hstate, nofun⟩
    rw [← writeWord_frame, busRead_window hlow hhigh h4 hreadBack, readWord_writeWord]
  case read =>
    have cell (j : Fin 4) : Memory.read s.bufs (off.toNat + j.val) = some (b j) := by
      rw [← cellAddr_of_word (i := ⟨4 * k.val + j.val, by omega⟩) hoff rfl]
      exact hb j _ rfl
    rw [busRead_window hlow hhigh h4 hread]
    exact readWord_written (cell 0) (cell 1) (cell 2) (cell 3)

/-! ## Access errors -/

theorem busRead_unaligned {off : Offset} {bytes : Nat} (s : State) (h : ¬ (bytes = 4 ∧ off.toNat % 4 = 0)) :
    busRead off bytes s = failedRead s := by
  rw [busRead, if_neg (mt (aligned_iff _ _).1 h)]

theorem busWrite_unaligned {off : Offset} {bytes : Nat} (v : Word) (s : State)
    (h : ¬ (bytes = 4 ∧ off.toNat % 4 = 0)) : busWrite off bytes v s = .next (accessError s) := by
  rw [busWrite, if_neg (mt (aligned_iff _ _).1 h)]

/-- A place that cannot be read gives an access error at any width. -/
theorem busRead_of_failedRead {off : Offset} {s : State} (bytes : Nat)
    (h : readLoc (locate off) s = failedRead s) : busRead off bytes s = failedRead s := by
  rw [busRead, h, ite_self]

/-- Above the registers only the open window can be read. -/
theorem readLoc_closed {off : Offset} {s : State} (h : 0x038 ≤ off.toNat)
    (hw : 0x800 ≤ off.toNat → off.toNat < 0xC00 → windowOpen false s = false) :
    readLoc (locate off) s = failedRead s := by
  rw [locate_above_registers h]
  split
  · next hin => simp [readLoc, hw hin.1 hin.2]
  · rfl

/-- Above ARG only the open window can be written (R85). -/
theorem busWrite_readOnly {off : Offset} {s : State} (bytes : Nat) (v : Word) (h : 0x008 ≤ off.toNat)
    (hw : 0x800 ≤ off.toNat → off.toNat < 0xC00 → windowOpen true s = false) :
    busWrite off bytes v s = .next (accessError s) := by
  rcases busWrite_cases off bytes v s with ⟨rfl, _⟩ | ⟨rfl, _⟩ | ⟨rfl, _⟩ | ⟨hlow, hhigh, _, ho, _⟩ | e
  · exact absurd h (by decide)
  · exact absurd h (by decide)
  · exact absurd h (by decide)
  · rw [hw hlow (by omega)] at ho; nomatch ho
  · exact e

/-- While IOSEQ is busy or a stream runs the window is closed (R86). -/
theorem windowOpen_of_running {s : State} (isWrite : Bool)
    (h : s.ioseq.busy = true ∨ s.str.state = .priming ∨ s.str.state = .active) : windowOpen isWrite s = false := by
  rcases h with h | h | h <;> simp [windowOpen, h]

/-- A halted block's window takes no write (R86, 60_exceptions.md R287). -/
theorem windowOpen_write_of_halted {s : State} (h : s.halted = true) : windowOpen true s = false := by
  simp [windowOpen, h]

/-- Settles O46, cause by cause. -/
theorem accessErrors : Obligations.AccessErrors := by
  unfold Obligations.AccessErrors
  refine ⟨fun s off bytes h => ?read, fun s off bytes v h => ?write⟩
  case read =>
    show busRead off bytes s = failedRead s
    rcases h with h | h | ⟨h1, h2⟩ | h | h | ⟨h1, _, h⟩
    · exact busRead_unaligned s (by simp [h])
    · exact busRead_unaligned s (by simp [h])
    · exact busRead_of_failedRead bytes (readLoc_closed h1 (by omega))
    · exact busRead_of_failedRead bytes (readLoc_closed (by omega) (by omega))
    · obtain rfl : off = 0 := BitVec.eq_of_toNat_eq h
      exact busRead_of_failedRead bytes rfl
    · exact busRead_of_failedRead bytes (readLoc_closed (by omega) fun _ _ => windowOpen_of_running _ h)
  case write =>
    show busWrite off bytes v s = .next (accessError s)
    rcases h with h | h | ⟨h1, h2⟩ | h | ⟨h1, _, h⟩
    · exact busWrite_unaligned v s (by simp [h])
    · exact busWrite_unaligned v s (by simp [h])
    · exact busWrite_readOnly bytes v h1 (by omega)
    · exact busWrite_readOnly bytes v (by omega) (by omega)
    · have closed : windowOpen true s = false := by
        rcases h with h | h | h | h
        · exact windowOpen_of_running _ (.inl h)
        · exact windowOpen_of_running _ (.inr (.inl h))
        · exact windowOpen_of_running _ (.inr (.inr h))
        · exact windowOpen_write_of_halted h
      exact busWrite_readOnly bytes v (by omega) fun _ _ => closed

end Sys2Proof.Machine
end

section
/-! SUPPORT. Reads of unwritten cells and MFAULT (20_memory.md R88, 60_exceptions.md R280). -/

namespace Sys2Proof.Machine

/-! ## Reads -/

theorem readCell_mfault_of_unwritten {a : Nat} {s : State} (h : Memory.read s.bufs a = none) :
    (readCell a s).2.mfault = true := by
  rw [readCell_unwritten h]; rfl

/-- A word with an unwritten cell sets MFAULT, whichever of the four it is. -/
theorem readWord_mfault_of_unwritten {a j : Nat} {s : State} (hj : j < 4)
    (h : Memory.read s.bufs (a + j) = none) : (readWord a s).2.mfault = true := by
  match j, hj with
  | 0, _ =>
    exact readCell_mfault _ _ (readCell_mfault _ _ (readCell_mfault _ _ (readCell_mfault_of_unwritten h)))
  | 1, _ => exact readCell_mfault _ _ (readCell_mfault _ _ (readCell_mfault_of_unwritten (by simpa using h)))
  | 2, _ => exact readCell_mfault _ _ (readCell_mfault_of_unwritten (by simpa using h))
  | 3, _ => exact readCell_mfault_of_unwritten (by simpa using h)

/-- Reading a word with an unwritten cell sets MFAULT and counts draws, and changes nothing else. -/
theorem readWord_unwritten {a j : Nat} {s : State} (hj : j < 4) (h : Memory.read s.bufs (a + j) = none) :
    ∃ d, (readWord a s).2 = (s.withMfault true).withEnv { s.env with draws := d } := by
  obtain ⟨f, d, e, -⟩ := readWord_state a s
  have hf := readWord_mfault_of_unwritten hj h
  rw [e] at hf
  exact ⟨d, by rw [e, show f = true from hf]⟩

/-- A drain step sets MFAULT exactly as the read of its cell does (43_streaming.md R253). -/
theorem drainAgent_mfault {s : State} (he : drainEnabled s = true) :
    (drainAgent s).mfault = (readCell (cellAddr s.str.role s.str.cursor) s).2.mfault := by
  rw [drainAgent, if_pos he]
  exact (drainStep_out s).1

/-- An exchange that goes on at `p` (41_transport.md R192). -/
theorem xfer_goto_eq_afterExchange (tx : Byte) (p : IoPos) (s : State) :
    (xfer tx s).goto p = afterExchange tx p s := rfl

/-- W4 exchanges the byte it reads (42_storage.md R223). -/
theorem ioAgent_w4 {s : State} {i : SectorIdx} (hh : s.halted = false) (hp : s.ioseq.pos = .w4 i) :
    ioAgent s = afterExchange (readCell (cellAddr s.ioseq.d i) s).1 (if i = 511 then .w5 else .w4 (i + 1))
      (readCell (cellAddr s.ioseq.d i) s).2 := by
  rw [ioAgent_eq hh hp nofun nofun, ioStep, hp]
  exact xfer_goto_eq_afterExchange _ _ _

/-! ## MFAULT stays -/

/-- A status test does not touch MFAULT. -/
theorem stepTest_mfault (k : Site) (r : Byte) (s : State) : (stepTest k r s).mfault = s.mfault := by
  cases k <;> simp only [stepTest, apply_ite State.mfault, State.goto_mfault, raiseFatal_mfault, ite_self]

/-- Everything IOSEQ's step can do to MFAULT: the cell read at W4 may set it, no other line touches it. -/
theorem ioStep_mfault (s : State) :
    (ioStep s).mfault = s.mfault ∨
      ∃ i, s.ioseq.pos = .w4 i ∧ (ioStep s).mfault = (readCell (cellAddr s.ioseq.d i) s).2.mfault := by
  cases hp : s.ioseq.pos <;> simp only [ioStep, hp]
  case idle => exact .inl trivial
  case w4 i => exact .inr ⟨i, rfl, rfl⟩
  all_goals left
  case send k p =>
    cases p with
    | s8 => simp only [stepSend, stepPoll]; split <;> rfl
    | _ => rfl
  case test k r => exact stepTest_mfault k r s
  case close k p => cases p <;> rfl
  case rd3 => simp only [stepRd3]; split <;> rfl
  case w5 => simp only [stepW5]; split <;> rfl
  case w6 => unfold stepW6; split <;> rfl
  case w7 => simp only [stepW7]; split <;> rfl
  case l5 => unfold stepL5; split <;> rfl
  all_goals rfl

/-- No command touches MFAULT. -/
theorem actOf_mfault (i : Instr) (s0 s : State) : (actOf i s0 s).mfault = s.mfault := by
  cases i <;> rfl

/-- A step keeps a recorded model fault: a read of a cell only sets it, and no other operation writes it, the reset
event included. -/
theorem step_mfault {s t : State} (h : step s = .next t) (hf : s.mfault = true) : t.mfault = true := by
  rcases step_cases h with ⟨level, _, rfl⟩ | ⟨_, _, rfl⟩ | ⟨_, _, rfl⟩ | ⟨_, _, rfl⟩ | ⟨_, _, rfl⟩ |
    ⟨off, bytes, _, rfl⟩ | ⟨off, bytes, v, _, hw⟩ | rfl
  · rcases setRstN_cases level s.takeTurn with ⟨_, e⟩ | ⟨_, _, e⟩ <;> rw [e] <;> exact hf
  · exact hf
  · exact hf
  · rcases ioStep_mfault s.takeTurn with e | ⟨_, _, e⟩ <;> rw [e]
    · exact hf
    · exact readCell_mfault _ _ hf
  · rw [(drainStep_out s.takeTurn).1]
    exact readCell_mfault _ _ hf
  · exact deliver_mfault off bytes _ hf
  · rcases busWrite_next hw with ⟨_, _, i, _, _, rfl⟩ | ⟨_, _, _, rfl⟩ | rfl | ⟨_, _, _, rfl⟩ | rfl
    · rw [actOf_mfault]; exact hf
    all_goals exact hf
  · exact hf

/-- Settles O52: reader by reader, a written and an unwritten cell; then the steps. -/
theorem unwrittenCellSetsMfault : Obligations.UnwrittenCellSetsMfault := by
  unfold Obligations.UnwrittenCellSetsMfault
  refine ⟨fun s off hlow hhigh h4 hbusy hstate => ?host, fun s he => ?drain, fun s i hh hp => ?w4,
    fun s t h hf => step_mfault h hf⟩
  case host =>
    rw [busRead_window hlow hhigh h4 ((windowOpen_iff _ _).2 ⟨hbusy, hstate, nofun⟩)]
    refine ⟨fun ⟨j, hj, h⟩ => readWord_unwritten hj h, fun h => ?_⟩
    obtain ⟨b0, h0⟩ := h 0 (by decide)
    obtain ⟨b1, h1⟩ := h 1 (by decide)
    obtain ⟨b2, h2⟩ := h 2 (by decide)
    obtain ⟨b3, h3⟩ := h 3 (by decide)
    exact congrArg Prod.snd (readWord_written h0 h1 h2 h3)
  case drain =>
    rw [drainAgent_mfault he]
    exact ⟨readCell_mfault_of_unwritten, fun ⟨b, h⟩ => by rw [readCell_written h]⟩
  case w4 =>
    rw [ioAgent_w4 hh hp]
    exact ⟨fun h => ⟨_, _, by rw [readCell_unwritten h]; rfl⟩, fun b h => by rw [readCell_written h]⟩

end Sys2Proof.Machine
end

section
/-! SUPPORT. The decoder on the words of the twelve commands (30_encoding.md R113, R117), and the rows of the opcode map
as the words that decode (R113, R115); from them, the statements about the encoding. -/

namespace Sys2Proof

/-! ## The word of each command -/

theorem decode_mkWord_modInit (imm : BitVec 16) (b : Bool) :
    decode (mkWord imm (flagByte b) 0x10) = .ok (.modInit imm.toNat b) := by
  simp [decode, immFlagCommand]

theorem decode_mkWord_modSample (imm : BitVec 16) : decode (mkWord imm 0 0x12) = .ok (.modSample imm.toInt) := by
  simp [decode]

theorem decode_mkWord_modStep (imm : BitVec 16) (b : Bool) :
    decode (mkWord imm (flagByte b) 0x13) = .ok (.modStep imm.toInt b) := by
  simp [decode, immFlagCommand]

theorem decode_mkWord_xptCs (b : Bool) : decode (mkWord 0 (flagByte b) 0x20) = .ok (.xptCs b) := by
  simp [decode, flagCommand]

theorem decode_mkWord_xptXfer (t : Byte) : decode (mkWord 0 t 0x21) = .ok (.xptXfer t) := by
  simp [decode]

theorem decode_mkWord_bscRead (b : Bool) : decode (mkWord 0 (flagByte b) 0x31) = .ok (.bscRead (bufOfFlag b)) := by
  simp [decode, flagCommand]

theorem decode_mkWord_bscWrite (b : Bool) : decode (mkWord 0 (flagByte b) 0x32) = .ok (.bscWrite (bufOfFlag b)) := by
  simp [decode, flagCommand]

/-! ## Decode and encode -/

/-- A sample survives its 16-bit field (R111, `sext_16`). -/
theorem toInt_ofInt_of_sampleFits {smp : Int} (h : Instr.sampleFits smp) : (BitVec.ofInt 16 smp).toInt = smp :=
  BitVec.toInt_ofInt_eq_self (by decide) h.1 (Int.lt_add_one_of_le h.2)

/-- The decoder inverts the encoder on the instructions whose operands fit their fields. -/
theorem decode_encode {i : Instr} (h : i.wf = true) : decode (encode i) = .ok i := by
  cases i with
  | modInit r ssel =>
    have hr : r < 2 ^ 16 := Nat.lt_succ_of_le (of_decide_eq_true h)
    rw [encode, decode_mkWord_modInit, BitVec.toNat_ofNat, Nat.mod_eq_of_lt hr]
  | modSample smp => rw [encode, decode_mkWord_modSample, toInt_ofInt_of_sampleFits (of_decide_eq_true h)]
  | modStep smp e => rw [encode, decode_mkWord_modStep, toInt_ofInt_of_sampleFits (of_decide_eq_true h)]
  | xptCs c => exact decode_mkWord_xptCs c
  | xptXfer t => exact decode_mkWord_xptXfer t
  | bscRead d => rw [encode, decode_mkWord_bscRead, bufOfFlag_flagOfBuf]
  | bscWrite d => rw [encode, decode_mkWord_bscWrite, bufOfFlag_flagOfBuf]
  | modPrime | modEnd | bscInit | strCfg | strStart => rfl

/-- Settles O2, constructor by constructor: each operand survives its field. -/
theorem decodeOfEncode : Obligations.DecodeOfEncode := fun _ => decode_encode

/-- Settles O3, from `encode_of_decode`: the decoder drops no bit of a word. -/
theorem encodeOfDecode : Obligations.EncodeOfDecode := fun _ _ => encode_of_decode

/-- Settles O1: twenty-two fixed words, on which the decoder is evaluated. -/
theorem specWordsDecode : Obligations.SpecWordsDecode := by
  unfold Obligations.SpecWordsDecode
  decide

/-! ## The opcode map -/

/-- The word of every instruction is admitted by the row of its mnemonic and unit. -/
theorem rowAdmits (i : Instr) : Laws.RowAdmits.Statement i := by
  cases i with
  | modInit r ssel => exact Laws.RowAdmits.modInit r ssel
  | modPrime => exact Laws.RowAdmits.modPrime
  | modSample smp => exact Laws.RowAdmits.modSample smp
  | modStep smp e => exact Laws.RowAdmits.modStep smp e
  | modEnd => exact Laws.RowAdmits.modEnd
  | xptCs c => exact Laws.RowAdmits.xptCs c
  | xptXfer t => exact Laws.RowAdmits.xptXfer t
  | bscInit => exact Laws.RowAdmits.bscInit
  | bscRead d => exact Laws.RowAdmits.bscRead d
  | bscWrite d => exact Laws.RowAdmits.bscWrite d
  | strCfg => exact Laws.RowAdmits.strCfg
  | strStart => exact Laws.RowAdmits.strStart

/-- A word that decodes is admitted by the row of its instruction's mnemonic and unit. -/
theorem admits_of_decode {w : Word} {i : Instr} (h : decode w = .ok i) :
    ∃ row ∈ opRows, row.mnemonic = i.mnemonic ∧ row.unit = i.unit ∧ w &&& row.mask = row.pattern := by
  obtain ⟨row, hrow, hname, hunit, hadmits⟩ := rowAdmits i
  rw [(encode_of_decode h).1] at hadmits
  exact ⟨row, hrow, hname, hunit, eq_of_beq hadmits⟩

/-- The fields of a word that a row admits, where the row fixes the whole of `OP`. -/
theorem fields_of_admits {w : Word} (mi : BitVec 16) (mf op : Byte) (h : w &&& mkWord mi mf 0xFF = mkWord 0 0 op) :
    ∃ imm f8, w = mkWord imm f8 op ∧ imm &&& mi = 0 ∧ f8 &&& mf = 0 := by
  rw [← mkWord_fields w, mkWord_and, mkWord_inj] at h
  obtain ⟨hi, hf, ho⟩ := h
  have hop : wordOp w = op := BitVec.and_allOnes.symm.trans ho
  exact ⟨wordImm16 w, wordF8 w, by rw [← hop, mkWord_fields], hi, hf⟩

/-- A flag byte is one whose reserved bits are 0 (R111). -/
theorem exists_flagByte_of_reserved : ∀ {f8 : Byte}, f8 &&& 0xFE = 0 → ∃ b, f8 = flagByte b := by
  decide

/-- A row without operands admits its opcode's word alone. -/
theorem eq_pattern_of_fullMask {w p : Word} (h : w &&& 0xFFFFFFFF = p) : w = p :=
  BitVec.and_allOnes.symm.trans h

/-- A row whose only operand is `F8[0]` admits the words of the two flags. -/
theorem flagWord_of_admits {w : Word} (op : Byte) (h : w &&& 0xFFFFFEFF = mkWord 0 0 op) :
    ∃ b, w = mkWord 0 (flagByte b) op := by
  obtain ⟨imm, f8, rfl, hi, hf⟩ := fields_of_admits 0xFFFF 0xFE op h
  obtain ⟨b, rfl⟩ := exists_flagByte_of_reserved hf
  have himm : imm = 0 := BitVec.and_allOnes.symm.trans hi
  exact ⟨b, by rw [himm]⟩

/-- A row with operands in `IMM16` and `F8[0]` admits the words of all their values. -/
theorem immFlagWord_of_admits {w : Word} (op : Byte) (h : w &&& 0x0000FEFF = mkWord 0 0 op) :
    ∃ imm b, w = mkWord imm (flagByte b) op := by
  obtain ⟨imm, f8, rfl, -, hf⟩ := fields_of_admits 0 0xFE op h
  obtain ⟨b, rfl⟩ := exists_flagByte_of_reserved hf
  exact ⟨imm, b, rfl⟩

/-- A word that a row of the opcode map admits decodes to that row's command. -/
theorem decode_of_admits {w : Word} {row : OpRow} (hrow : row ∈ opRows) (h : w &&& row.mask = row.pattern) :
    ∃ i, decode w = .ok i ∧ i.mnemonic = row.mnemonic ∧ i.unit = row.unit := by
  simp only [opRows, List.mem_cons, List.not_mem_nil, or_false] at hrow
  rcases hrow with rfl | rfl | rfl | rfl | rfl | rfl | rfl | rfl | rfl | rfl | rfl | rfl
  · obtain ⟨imm, b, rfl⟩ := immFlagWord_of_admits 0x10 h
    exact ⟨_, decode_mkWord_modInit imm b, rfl, rfl⟩
  · cases eq_pattern_of_fullMask h
    exact ⟨.modPrime, rfl, rfl, rfl⟩
  · obtain ⟨imm, f8, rfl, -, hf⟩ := fields_of_admits 0 0xFF 0x12 h
    have hf8 : f8 = 0 := BitVec.and_allOnes.symm.trans hf
    exact ⟨_, hf8 ▸ decode_mkWord_modSample imm, rfl, rfl⟩
  · obtain ⟨imm, b, rfl⟩ := immFlagWord_of_admits 0x13 h
    exact ⟨_, decode_mkWord_modStep imm b, rfl, rfl⟩
  · cases eq_pattern_of_fullMask h
    exact ⟨.modEnd, rfl, rfl, rfl⟩
  · obtain ⟨b, rfl⟩ := flagWord_of_admits 0x20 h
    exact ⟨_, decode_mkWord_xptCs b, rfl, rfl⟩
  · obtain ⟨imm, t, rfl, hi, -⟩ := fields_of_admits 0xFFFF 0 0x21 h
    have himm : imm = 0 := BitVec.and_allOnes.symm.trans hi
    exact ⟨_, himm ▸ decode_mkWord_xptXfer t, rfl, rfl⟩
  · cases eq_pattern_of_fullMask h
    exact ⟨.bscInit, rfl, rfl, rfl⟩
  · obtain ⟨b, rfl⟩ := flagWord_of_admits 0x31 h
    exact ⟨_, decode_mkWord_bscRead b, rfl, rfl⟩
  · obtain ⟨b, rfl⟩ := flagWord_of_admits 0x32 h
    exact ⟨_, decode_mkWord_bscWrite b, rfl, rfl⟩
  · cases eq_pattern_of_fullMask h
    exact ⟨.strCfg, rfl, rfl, rfl⟩
  · cases eq_pattern_of_fullMask h
    exact ⟨.strStart, rfl, rfl, rfl⟩

/-- No two rows of the opcode map have one opcode. -/
theorem opRows_eq_of_op : ∀ r1 ∈ opRows, ∀ r2 ∈ opRows, wordOp r1.pattern = wordOp r2.pattern → r1 = r2 := by
  decide

/-- No two rows of the opcode map have one mnemonic. -/
theorem opRows_eq_of_mnemonic : ∀ r1 ∈ opRows, ∀ r2 ∈ opRows, r1.mnemonic = r2.mnemonic → r1 = r2 := by
  decide

/-- Every row fixes the whole of `OP`. -/
theorem opRows_op_fixed : ∀ row ∈ opRows, wordOp row.mask = 0xFF := by
  decide

theorem wordOp_and (v w : Word) : wordOp (v &&& w) = wordOp v &&& wordOp w :=
  BitVec.extractLsb'_and ..

/-- A word that a row admits has that row's opcode. -/
theorem wordOp_of_admits {w : Word} {row : OpRow} (hrow : row ∈ opRows) (h : w &&& row.mask = row.pattern) :
    wordOp row.pattern = wordOp w := by
  rw [← h, wordOp_and, opRows_op_fixed row hrow]
  exact BitVec.and_allOnes

theorem opRows_eq_of_admits {w : Word} {r1 r2 : OpRow} (h1 : r1 ∈ opRows) (h2 : r2 ∈ opRows)
    (ha1 : w &&& r1.mask = r1.pattern) (ha2 : w &&& r2.mask = r2.pattern) : r1 = r2 :=
  opRows_eq_of_op r1 h1 r2 h2 ((wordOp_of_admits h1 ha1).trans (wordOp_of_admits h2 ha2).symm)

/-- Settles O4: a row's words decode, row by row; a decoded word is admitted by the one row of its mnemonic; and the
opcode tells the rows apart. -/
theorem decodeFollowsOpcodeMap : Obligations.DecodeFollowsOpcodeMap := by
  unfold Obligations.DecodeFollowsOpcodeMap
  refine ⟨fun w row hrow => ⟨decode_of_admits hrow, fun ⟨i, hi, hname, _⟩ => ?_⟩,
    fun w r1 r2 h1 h2 => opRows_eq_of_admits h1 h2⟩
  obtain ⟨row', hrow', hname', -, hadmits⟩ := admits_of_decode hi
  rwa [opRows_eq_of_mnemonic row hrow row' hrow' (hname.symm.trans hname'.symm)]

/-! ## ILLEGAL words -/

/-- A word decodes exactly when a row of the opcode map admits it. -/
theorem decode_ok_iff_admits (w : Word) :
    (∃ i, decode w = .ok i) ↔ ∃ row ∈ opRows, w &&& row.mask = row.pattern := by
  constructor
  · rintro ⟨i, hi⟩
    obtain ⟨row, hrow, -, -, hadmits⟩ := admits_of_decode hi
    exact ⟨row, hrow, hadmits⟩
  · rintro ⟨row, hrow, hadmits⟩
    obtain ⟨i, hi, -⟩ := decode_of_admits hrow hadmits
    exact ⟨i, hi⟩

theorem decode_error_iff (w : Word) : (∃ e, decode w = .error e) ↔ ¬ ∃ i, decode w = .ok i := by
  cases decode w <;> simp

/-- The opcodes of the rows (R113). -/
theorem opRows_ops : opRows.map (fun row => wordOp row.pattern) =
    [0x10, 0x11, 0x12, 0x13, 0x14, 0x20, 0x21, 0x30, 0x31, 0x32, 0x40, 0x41] := by
  decide

/-- R115's two ways to be ILLEGAL: no row has the word's opcode, or the row that has it does not admit the word. -/
theorem decode_error_iff_illegal (w : Word) :
    (∃ e, decode w = .error e) ↔
      wordOp w ∉ opRows.map (fun row => wordOp row.pattern) ∨
        ∃ row ∈ opRows, wordOp row.pattern = wordOp w ∧ w &&& row.mask ≠ row.pattern := by
  rw [decode_error_iff, decode_ok_iff_admits]
  constructor
  · intro hnone
    rw [or_iff_not_imp_left, not_not, List.mem_map]
    rintro ⟨row, hrow, hop⟩
    exact ⟨row, hrow, hop, fun hadmits => hnone ⟨row, hrow, hadmits⟩⟩
  · rintro (hop | ⟨row, hrow, hop, hnot⟩) ⟨row', hrow', hadmits⟩
    · exact hop (List.mem_map.2 ⟨row', hrow', wordOp_of_admits hrow' hadmits⟩)
    · rw [opRows_eq_of_op row hrow row' hrow' (hop.trans (wordOp_of_admits hrow' hadmits).symm)] at hnot
      exact hnot hadmits

end Sys2Proof
end

section
/-! SUPPORT. A write of CMD (30_encoding.md R114) and the checks a command passes, in their order (60_exceptions.md
R282); from them, the statements about ILLEGAL words, refusals and the order of the checks. -/

namespace Sys2Proof.Machine

/-! ## A write of CMD -/

/-- A word that decodes is executed. -/
theorem busWrite_cmd_of_ok {w : Word} {i : Instr} (s : State) (h : decode w = .ok i) :
    busWrite 0x000 4 w s = exec i s := by
  show writeCmd w s = _
  rw [writeCmd, h]

/-- A word that does not decode is refused. -/
theorem busWrite_cmd_of_error {w : Word} {e : DecodeError} (s : State) (h : decode w = .error e) :
    busWrite 0x000 4 w s = .next (refuseIllegal s) := by
  show writeCmd w s = _
  rw [writeCmd, h]

/-- R115: outside a halted block an ILLEGAL word sets ERR to 1 and does nothing else. -/
theorem busWrite_illegal {w : Word} {e : DecodeError} {s : State} (hh : s.halted = false) (h : decode w = .error e) :
    busWrite 0x000 4 w s = .next { s with err := .illegal } := by
  rw [busWrite_cmd_of_error s h, refuseIllegal, if_neg (by simp [hh])]
  rfl

/-- Settles O5, from the opcode map's rows and the refusal of a word that does not decode. -/
theorem illegalWordsOnlySetErr : Obligations.IllegalWordsOnlySetErr := by
  unfold Obligations.IllegalWordsOnlySetErr
  exact ⟨fun w => opRows_ops ▸ decode_error_iff_illegal w, fun _ _ _ hh h => busWrite_illegal hh h, _, rfl⟩

/-! ## Refusals -/

/-- Settles O8: an accepted command leaves ERR at OK, and a refused one writes ERR alone. -/
theorem refusedCommandWritesOnlyErr : Obligations.RefusedCommandWritesOnlyErr := by
  unfold Obligations.RefusedCommandWritesOnlyErr
  intro i s
  rcases exec_cases i s with ⟨-, hexec⟩ | ⟨e, -, hexec⟩
  · exact ⟨_, hexec, fun herr => absurd (actOf_err i s (s.withErr .ok)) herr⟩
  · exact ⟨_, hexec, fun _ => rfl⟩

/-- A command whose first failing check answers `e` writes `e` to ERR and does nothing else. -/
theorem exec_of_verdict {i : Instr} {s : State} {e : ErrCode} (hv : verdict i.unit (preOf i s) (argOf i s) s = e)
    (he : e ≠ .ok) : exec i s = .next { s with err := e } := by
  rw [exec_eq_issue, issue_of_refused (hv ▸ he), hv]
  rfl

/-! ## The order of the checks -/

section
variable {u : CmdUnit} {s : State} (pre argOk : Bool)

theorem verdict_of_halted (hh : s.halted = true) : verdict u pre argOk s = .halted := by
  rw [verdict, if_pos hh]

theorem verdict_of_busy (hh : s.halted = false) (hb : unitBusy u s = true) : verdict u pre argOk s = .busy := by
  rw [verdict, if_neg (by simp [hh]), if_pos hb]

theorem verdict_io_of_stopped (hh : s.halted = false) (hb : s.ioseq.busy = false) (hs : s.str.state = .stopped) :
    verdict .io pre argOk s = .state := by
  rw [verdict, if_neg (by simp [hh]), if_neg (by simp [unitBusy, hb]), if_pos ⟨rfl, hs⟩]

/-- A stopped stream and a failed state precondition give one code. -/
theorem verdict_io_of_pre_false (hh : s.halted = false) (hb : s.ioseq.busy = false) :
    verdict .io false argOk s = .state := by
  rw [verdict, if_neg (by simp [hh]), if_neg (by simp [unitBusy, hb]), if_pos rfl, ite_self]

end

/-- A halted block answers every CMD write, ILLEGAL words included, with 5 (R114). -/
theorem busWrite_cmd_of_halted {s : State} (hh : s.halted = true) (w : Word) :
    busWrite 0x000 4 w s = .next { s with err := .halted } := by
  cases hd : decode w with
  | ok i => rw [busWrite_cmd_of_ok s hd, exec_of_verdict (verdict_of_halted _ _ hh) nofun]
  | error e =>
    rw [busWrite_cmd_of_error s hd, refuseIllegal, if_pos hh]
    rfl

/-- Settles O9, check by check from the verdict. -/
theorem checksInOrder : Obligations.ChecksInOrder := by
  unfold Obligations.ChecksInOrder
  intro s
  refine ⟨busWrite_cmd_of_halted, fun hh _ _ => busWrite_illegal hh, fun hh i hu hb => ?modBusy,
    fun hh i hu hb => ?ioBusy, fun hh hb hs i hu => ?stopped, fun hh hb hready => ?notReady⟩
  case modBusy => exact exec_of_verdict (verdict_of_busy _ _ hh (by rw [hu]; exact hb)) nofun
  case ioBusy => exact exec_of_verdict (verdict_of_busy _ _ hh (by rw [hu]; exact hb)) nofun
  case stopped => exact exec_of_verdict (by rw [hu]; exact verdict_io_of_stopped _ _ hh hb hs) nofun
  case notReady =>
    have hpre : preOf .strStart s = false := by simp [preOf, sessionReady, hready]
    exact exec_of_verdict (by rw [hpre]; exact verdict_io_of_pre_false _ hh hb) nofun

/-! ## The step of a command -/

theorem tableWord_toNat (w : Word) : tableWord 32 w.toNat = w := by
  rw [tableWord, Nat.mod_eq_of_lt w.isLt, BitVec.ofNat_toNat, BitVec.setWidth_eq]

/-- HOST's turn that writes a command's word runs the command. -/
theorem step_cmd {s : State} {w : Word} {i : Instr} (hd : decode w = .ok i)
    (hn : s.nextTurn = .host (.write 0x000 4 w)) (hr : s.env.rstN = true) : step s = exec i s.takeTurn := by
  rw [step_write hr hn, busWrite_cmd_of_ok _ hd]

/-- Settles O6: `withFetchWord` decides HOST's turn and sets RST_N high, so `step_cmd` applies to it too. -/
theorem stepRunsDecodedCommand : Obligations.StepRunsDecodedCommand := by
  unfold Obligations.StepRunsDecodedCommand
  intro s w i hd
  refine ⟨step_cmd hd, ?_⟩
  rw [State.withFetchWord, tableWord_toNat, step_cmd hd (nextTurn_of_decided rfl) rfl]
  rfl

end Sys2Proof.Machine
end

section
/-! SUPPORT. The five MOD commands (40_modulator.md R141 to R145): what an accepted one does, and when one is
refused. -/

namespace Sys2Proof.Machine

/-! ## Accepted commands -/

section
variable {s : State} (hh : s.halted = false) (hb : s.mod.busy = false)
include hh hb

/-- A MOD command that passes its checks performs its accept action. -/
theorem exec_mod_of_accepted {i : Instr} (hu : i.unit = .mod) (hpre : preOf i s = true) (harg : argOf i s = true) :
    exec i s = .next (actOf i s (s.withErr .ok)) := by
  rw [exec_eq_issue, hu, issue_mod hh hb hpre harg]

/-- MOD_PRIME in CONFIGURED starts S·R silent steps of sample 0 (R142). -/
theorem exec_modPrime (hp : s.mod.phase = .configured) :
    exec .modPrime s = .next (startMod .prime (primeSteps s.mod) 0 false (s.withErr .ok)) :=
  exec_mod_of_accepted hh hb rfl (by simp [preOf, hp]) rfl

/-- MOD_SAMPLE in PRIMED starts 2·R emitting steps of its sample (R143). -/
theorem exec_modSample (hp : s.mod.phase = .primed) (smp : Int) :
    exec (.modSample smp) s =
      .next (startMod .sample (sampleSteps s.mod) (BitVec.ofInt 16 smp) true (s.withErr .ok)) :=
  exec_mod_of_accepted hh hb rfl (by simp [preOf, hp]) rfl

/-- MOD_STEP in CONFIGURED or PRIMED starts one step of its sample and emit flag (R144). -/
theorem exec_modStep (hp : s.mod.phase = .configured ∨ s.mod.phase = .primed) (smp : Int) (e : Bool) :
    exec (.modStep smp e) s = .next (startMod .step 1 (BitVec.ofInt 16 smp) e (s.withErr .ok)) :=
  exec_mod_of_accepted hh hb rfl (by simpa [preOf, configuredOrPrimed] using hp) rfl

/-- MOD_END in CONFIGURED or PRIMED ends the stream (R145). -/
theorem exec_modEnd (hp : s.mod.phase = .configured ∨ s.mod.phase = .primed) :
    exec .modEnd s = .next (acceptModEnd (s.withErr .ok)) :=
  exec_mod_of_accepted hh hb rfl (by simpa [preOf, configuredOrPrimed] using hp) rfl

end

/-- A count that fits a word is the number the word stands for. -/
theorem toNat_ofNat_of_lt {w n : Nat} (h : n < 2 ^ w) : (BitVec.ofNat w n).toNat = n := by
  rw [BitVec.toNat_ofNat, Nat.mod_eq_of_lt h]

/-- Settles O10: MOD_INIT's accept action writes every field of MOD but MOD_BUSY, which the check found 0. -/
theorem modInitConfigures : Obligations.ModInitConfigures := by
  unfold Obligations.ModInitConfigures
  intro r ssel s h1 hr hh hb
  refine ⟨?_, ?_⟩
  · rw [exec_mod_of_accepted (i := .modInit r ssel) hh hb rfl rfl (decide_eq_true h1)]
    simp [actOf, acceptModInit, State.withMod, State.withErr, hb]
  · exact toNat_ofNat_of_lt (by omega)

/-- S·R fits MOD_REMAIN (R142). -/
theorem primeSteps_lt (m : Mod) : primeSteps m < 2 ^ 32 := by
  have hlt := m.r.isLt
  simp only [primeSteps, sampleRate]
  split <;> omega

/-- 2·R fits MOD_REMAIN (R143). -/
theorem sampleSteps_lt (m : Mod) : sampleSteps m < 2 ^ 32 := by
  have hlt := m.r.isLt
  simp only [sampleSteps]
  omega

/-- A sample of 16 bits is held as it is. -/
theorem sample_toInt {smp : Int} (hlow : -32768 ≤ smp) (hhigh : smp ≤ 32767) : (BitVec.ofInt 16 smp).toInt = smp :=
  BitVec.toInt_ofInt_eq_self (by decide) hlow (by omega)

/-- Settles O11, one accept action a phase, whose counts fit MOD_REMAIN. -/
theorem modCommandsStart : Obligations.ModCommandsStart := by
  unfold Obligations.ModCommandsStart
  intro s smp e hh hb
  refine ⟨fun hp => ?_, fun hlow hhigh hp => ?_, fun hlow hhigh hp => ?_⟩
  · exact ⟨_, toNat_ofNat_of_lt (primeSteps_lt s.mod), exec_modPrime hh hb hp⟩
  · exact ⟨_, _, toNat_ofNat_of_lt (sampleSteps_lt s.mod), sample_toInt hlow hhigh, exec_modSample hh hb hp smp⟩
  · exact ⟨_, sample_toInt hlow hhigh, exec_modStep hh hb hp smp e⟩

/-- Settles O12: its accept action, field by field. -/
theorem modEndDiscardsPartialByte : Obligations.ModEndDiscardsPartialByte := by
  unfold Obligations.ModEndDiscardsPartialByte
  exact fun s hh hb hp => exec_modEnd hh hb hp

/-! ## Refused commands -/

section
variable {s : State} (hh : s.halted = false)
include hh

/-- A MOD command in a wrong phase is refused with STATE. -/
theorem exec_mod_of_pre_false (hb : s.mod.busy = false) {i : Instr} (hu : i.unit = .mod) (hpre : preOf i s = false) :
    exec i s = .next { s with err := .state } := by
  refine exec_of_verdict ?_ nofun
  simp [verdict, unitBusy, hu, hh, hb, hpre]

/-- A MOD command in a right phase whose argument check fails is refused with ARG. -/
theorem exec_mod_of_arg_false (hb : s.mod.busy = false) {i : Instr} (hu : i.unit = .mod) (hpre : preOf i s = true)
    (harg : argOf i s = false) : exec i s = .next { s with err := .arg } := by
  refine exec_of_verdict ?_ nofun
  simp [verdict, unitBusy, hu, hh, hb, hpre, harg]

end

/-- Outside CONFIGURED and PRIMED, MOD_STEP's and MOD_END's precondition fails (R144, R145). -/
theorem configuredOrPrimed_eq_false {s : State} (h : s.mod.phase = .unconfig ∨ s.mod.phase = .ended) :
    configuredOrPrimed s = false := by
  rcases h with h | h <;> simp [configuredOrPrimed, h]

/-- Settles O13: the first check that fails gives the code. -/
theorem modCommandRefusals : Obligations.ModCommandRefusals := by
  unfold Obligations.ModCommandRefusals
  intro s hh
  refine ⟨fun i hu hb => ?busy, fun hb => ⟨fun ssel => ?init, fun hp => ?prime, fun smp hp => ?sample,
    fun smp e hp => ?step, fun hp => ?ending⟩⟩
  case busy => exact exec_of_verdict (verdict_of_busy _ _ hh (by rw [hu]; exact hb)) nofun
  case init => exact exec_mod_of_arg_false hh hb rfl rfl rfl
  case prime => exact exec_mod_of_pre_false hh hb rfl (beq_false_of_ne hp)
  case sample => exact exec_mod_of_pre_false hh hb rfl (beq_false_of_ne hp)
  case step => exact exec_mod_of_pre_false hh hb rfl (configuredOrPrimed_eq_false hp)
  case ending => exact exec_mod_of_pre_false hh hb rfl (configuredOrPrimed_eq_false hp)

end Sys2Proof.Machine
end

section
/-! SUPPORT. MQ (40_modulator.md R150, R152): everything a step can do to it, said once; its depth, and HOST's pop. -/

namespace Sys2Proof.Machine

/-! ## What a step does to MQ -/

/-- No command adds a byte to MQ: MOD_INIT empties it, the others leave it alone. -/
theorem actOf_mq (i : Instr) (s0 s : State) : (actOf i s0 s).mod.mq <:+ s.mod.mq := by
  cases i with
  | modInit r ssel => exact List.nil_suffix
  | _ => exact List.suffix_refl _

/-- A read on the bus removes at most the head of MQ. -/
theorem deliver_mq (off : Offset) (bytes : Nat) (s : State) :
    (deliver (busRead off bytes s)).mod.mq <:+ s.mod.mq := by
  rcases deliver_mod off bytes s with e | ⟨b, q, hq, e⟩
  · rw [e]
  · rw [e, hq]
    exact List.suffix_cons b q

/-- Everything a step can do to MQ: bytes leave it at the head, or MOD takes a step that is not held. -/
theorem step_mq {s t : State} (h : step s = .next t) :
    t.mod.mq <:+ s.mod.mq ∨
      (s.mod.held = false ∧ t.mod.mq = (s.mod.advance Config.modPolarity).mq) := by
  have same : s.mod.mq <:+ s.mod.mq := List.suffix_refl _
  rcases step_cases h with ⟨level, _, rfl⟩ | ⟨_, _, rfl⟩ | ⟨_, he, rfl⟩ | ⟨_, _, rfl⟩ | ⟨_, _, rfl⟩ |
    ⟨off, bytes, _, rfl⟩ | ⟨off, bytes, v, _, hw⟩ | rfl
  · rcases setRstN_cases level s.takeTurn with ⟨_, e⟩ | ⟨_, _, e⟩ <;> rw [e]
    · exact .inl same
    · exact .inl List.nil_suffix
  · exact .inl same
  · obtain ⟨-, -, hheld⟩ := (modEnabled_iff _).1 he
    exact .inr ⟨hheld, rfl⟩
  · rcases ioStep_fatal s.takeTurn with ⟨c, -, -, e⟩ | ⟨-, -, e⟩ <;> rw [e]
    · exact .inl same
    · exact .inl same
  · rw [(drainStep_frame s.takeTurn).1]
    exact .inl same
  · exact .inl (deliver_mq off bytes s.takeTurn)
  · rcases busWrite_next hw with ⟨_, _, i, _, _, rfl⟩ | ⟨_, _, _, rfl⟩ | rfl | ⟨_, _, _, rfl⟩ | rfl
    · exact .inl (actOf_mq i _ _)
    all_goals exact .inl same
  · exact .inl same

/-! ## The depth of MQ -/

/-- A shorter queue is within the depth too. -/
theorem queueWithinDepth_of_le {s t : State} (hs : queueWithinDepth s)
    (h : t.mod.mq.length ≤ s.mod.mq.length) : queueWithinDepth t := by
  unfold queueWithinDepth at *
  split at hs
  · trivial
  · exact h.trans hs

/-- A queue that is not full has room for one byte more. -/
theorem queueWithinDepth_of_room {s t : State} (hs : queueFull Config.modOutDepth s.mod.mq = false)
    (h : t.mod.mq.length ≤ s.mod.mq.length + 1) : queueWithinDepth t := by
  unfold queueWithinDepth
  split
  · trivial
  · next pred hd =>
    have hroom : s.mod.mq.length < pred + 1 := by simpa [queueFull, hd] using hs
    omega

/-- A step of MOD leaves MQ alone or pushes the byte its eighth bit completes (R149). -/
theorem advance_mq (pol : Polarity) (m : Mod) :
    (m.advance pol).mq = m.mq ∨ (m.curE = true ∧ m.nbits = 7 ∧ ∃ b, (m.advance pol).mq = m.mq ++ [b]) := by
  rw [(advance_packer pol m).2.2]
  exact internalStep_mq pol m.curS.toInt m.curE m

/-- Settles O56: bytes only leave MQ, but for MOD's push, and the hold of R150 lets that one in only where there is
room. -/
theorem queueWithinDepthKept : Obligations.QueueWithinDepthKept := by
  unfold Obligations.QueueWithinDepthKept
  intro s t hs h
  rcases step_mq h with hsuffix | ⟨hheld, e⟩
  · exact queueWithinDepth_of_le hs hsuffix.length_le
  · rcases advance_mq Config.modPolarity s.mod with hkeep | ⟨hE, hbits, b, hpush⟩
    · exact queueWithinDepth_of_le hs (by rw [e, hkeep])
    · exact queueWithinDepth_of_room (queue_room hheld hE hbits) (by simp [e, hpush])

/-! ## MODOUT -/

/-- MODOUT's word is VALID (bit 8) with the byte below it. -/
theorem modoutWord_toNat (b : Byte) : (modoutWord b).toNat = 256 + b.toNat := by
  refine (toNat_append_eq (0#23 ++ 1#1) b).trans ?_
  simp

/-- Offset 0x01C is MODOUT (20_memory.md R81). -/
theorem busRead_modout (s : State) : busRead 0x01C 4 s = popModout s := rfl

theorem popModout_of_cons {s : State} {b : Byte} {q : List Byte} (h : s.mod.mq = b :: q) :
    popModout s =
      (modoutWord b, (s.withMod { s.mod with mq := q }).withEnv { s.env with popped := s.env.popped ++ [b] }) := by
  rw [popModout, h]

theorem popModout_of_nil {s : State} (h : s.mod.mq = []) : popModout s = (0, s) := by
  rw [popModout, h]

/-- Settles O27: HOST's turn pops MODOUT and delivers its word. -/
theorem modoutReadPops : Obligations.ModoutReadPops := by
  unfold Obligations.ModoutReadPops
  intro s hn hr
  rw [step_read hr hn, busRead_modout]
  refine ⟨fun b q hq => ⟨modoutWord b, modoutWord_toNat b, ?_⟩, fun hq => ?_⟩
  · rw [popModout_of_cons (s := s.takeTurn) hq]
    rfl
  · rw [popModout_of_nil (s := s.takeTurn) hq]
    rfl

end Sys2Proof.Machine
end

section
/-! SUPPORT. The modulator's step (40_modulator.md R146 to R151): its sums, its packer, and MOD's turn. -/

namespace Sys2Proof.Machine

/-! ## The sums -/

/-- A stored sum is congruent to the exact one (00_scope.md R9). -/
theorem wrap32_congr (x : Int) : ((wrap32 x).toInt - x) % 4294967296 = 0 := by
  rw [wrap32, BitVec.toInt_ofInt]
  exact Int.emod_eq_zero_of_dvd Int.dvd_bmod_sub_self

theorem fits32_iff (x : Int) : fits32 x = true ↔ -2147483648 ≤ x ∧ x ≤ 2147483647 := decide_eq_true_iff

/-- A sum in the `int32` range is stored as it is (R9). -/
theorem wrap32_of_fits {x : Int} (h : fits32 x = true) : (wrap32 x).toInt = x := by
  obtain ⟨hlow, hhigh⟩ := (fits32_iff x).1 h
  exact BitVec.toInt_ofInt_eq_self (by decide) hlow (by omega)

/-- The step overflows exactly when one of its three sums leaves the `int32` range (R148). -/
theorem accStep_overflow_eq_false (pol : Polarity) (a b : Word) (smp : Int) :
    (accStep pol a b smp).overflow = false ↔
      fits32 (b.toInt + a.toInt) = true ∧
      fits32 (a.toInt + (smp - feedbackSign pol * quantize pol (wrap32 (b.toInt + a.toInt)))) = true ∧
      fits32 ((wrap32 (b.toInt + a.toInt)).toInt -
        feedbackSign pol * quantize pol (wrap32 (b.toInt + a.toInt))) = true := by
  simp [accStep, and_assoc]

/-- Each row of R147's table is what the model takes for that polarity. -/
theorem polarity_row {pol : Polarity} {lGt lLe σ : Int}
    (h : (pol, lGt, lLe, σ) ∈
      [(Polarity.literal, (-32768 : Int), (32767 : Int), (1 : Int)), (.nonInv, 32767, -32768, 1),
        (.invFb, -32768, 32767, -1)]) :
    lGt = levelGt pol ∧ lLe = levelLe pol ∧ σ = feedbackSign pol := by
  simp only [List.mem_cons, Prod.mk.injEq, List.not_mem_nil, or_false] at h
  rcases h with ⟨rfl, rfl, rfl, rfl⟩ | ⟨rfl, rfl, rfl, rfl⟩ | ⟨rfl, rfl, rfl, rfl⟩ <;> exact ⟨rfl, rfl, rfl⟩

/-- Settles O20: each sum is stored by `wrap32`, which is exact where the sum fits. -/
theorem accumulatorStep : Obligations.AccumulatorStep := by
  unfold Obligations.AccumulatorStep
  intro pol lGt lLe σ a b smp hrow
  obtain ⟨rfl, rfl, rfl⟩ := polarity_row hrow
  have hov := accStep_overflow_eq_false pol a b smp
  refine ⟨wrap32 (b.toInt + a.toInt), quantize pol (wrap32 (b.toInt + a.toInt)), wrap32_congr _, rfl, wrap32_congr _,
    wrap32_congr _, decide_eq_true_iff, ?_, fun h => ?_⟩
  · simpa only [fits32_iff] using hov
  · obtain ⟨hb1, ha1, hb2⟩ := hov.1 h
    exact ⟨wrap32_of_fits hb1, wrap32_of_fits ha1, wrap32_of_fits hb2⟩

/-! ## The packer -/

/-- PACK with one bit more, shifted in at bit 0 (R149). -/
def shiftIn (p : Byte) (bit : Bool) : Byte := (p <<< 1) ||| (if bit then 1 else 0)

theorem shiftIn_zero (p : Byte) (bit : Bool) : (shiftIn p bit).getLsbD 0 = bit := by
  cases bit <;> simp [shiftIn]

theorem shiftIn_succ (p : Byte) (bit : Bool) {k : Nat} (hk : k < 7) :
    (shiftIn p bit).getLsbD (k + 1) = p.getLsbD k := by
  have hk8 : k + 1 < 8 := by omega
  cases bit <;> simp [shiftIn, hk8, -BitVec.getLsbD_eq_getElem]

/-- With fewer than seven bits waiting, PACKBIT only takes the bit in (R149). -/
theorem packBit_of_ne {m : Mod} (h : m.nbits ≠ 7) (bit : Bool) :
    m.packBit bit = { m with pack := shiftIn m.pack bit, nbits := m.nbits + 1 } := by
  rw [Mod.packBit, if_neg h]
  rfl

/-- The eighth bit pushes the byte (R149). -/
theorem packBit_of_eq {m : Mod} (h : m.nbits = 7) (bit : Bool) :
    m.packBit bit =
      { m with pack := shiftIn m.pack bit, nbits := 0, mq := m.mq ++ [shiftIn m.pack bit] } := by
  rw [Mod.packBit, if_pos h]
  rfl

/-- Fewer than eight bits in all wait in PACK (R149). -/
theorem foldl_packBit_of_lt (bits : List Bool) (m : Mod) (h : m.nbits.val + bits.length < 8) :
    bits.foldl Mod.packBit m =
      { m with pack := bits.foldl shiftIn m.pack, nbits := ⟨m.nbits.val + bits.length, h⟩ } := by
  induction bits generalizing m with
  | nil => rfl
  | cons bit bits ih =>
    have hlen : m.nbits.val + (bits.length + 1) < 8 := h
    have hne : m.nbits ≠ 7 := by omega
    have hval : (m.nbits + 1).val = m.nbits.val + 1 := by omega
    rw [List.foldl_cons, packBit_of_ne hne, ih _ (by rw [hval]; omega)]
    simp only [List.foldl_cons, List.length_cons, hval, Nat.add_assoc, Nat.add_comm 1]

/-- Eight bits from an empty packer push one byte, the first of them in bit 7 (R149). -/
theorem foldl_packBit_eight {m : Mod} (hn : m.nbits = 0) (b7 b6 b5 b4 b3 b2 b1 b0 : Bool) :
    ∃ p : Byte, [b0, b1, b2, b3, b4, b5, b6, b7] = (List.range 8).map p.getLsbD ∧
      [b7, b6, b5, b4, b3, b2, b1, b0].foldl Mod.packBit m = { m with pack := p, nbits := 0, mq := m.mq ++ [p] } := by
  refine ⟨[b7, b6, b5, b4, b3, b2, b1, b0].foldl shiftIn m.pack, ?_, ?_⟩
  · simp [List.range_succ, shiftIn_zero, shiftIn_succ, -BitVec.getLsbD_eq_getElem]
  · have hseven := foldl_packBit_of_lt [b7, b6, b5, b4, b3, b2, b1] m (by simp [hn])
    rw [show [b7, b6, b5, b4, b3, b2, b1, b0] = [b7, b6, b5, b4, b3, b2, b1] ++ [b0] from rfl,
      List.foldl_append, List.foldl_append, hseven]
    exact packBit_of_eq (by simp [hn]) b0

/-- A byte is known by its eight bits. -/
theorem byte_eq_of_bits {p q : Byte} (h : (List.range 8).map p.getLsbD = (List.range 8).map q.getLsbD) : p = q :=
  BitVec.eq_of_getLsbD_eq fun _ hi => List.map_inj_left.1 h _ (List.mem_range.2 hi)

/-- Settles O21, from one bit's effect and eight bits' effect. -/
theorem packerIsMsbFirst : Obligations.PackerIsMsbFirst := by
  unfold Obligations.PackerIsMsbFirst
  refine ⟨fun m bit => ?_, fun m b7 b6 b5 b4 b3 b2 b1 b0 hn => foldl_packBit_eight hn b7 b6 b5 b4 b3 b2 b1 b0,
    fun m hn hq => ?_, fun s hh hb hp => ?_⟩
  · exact ⟨shiftIn m.pack bit, shiftIn_zero _ _, fun k hk => shiftIn_succ _ _ hk, fun h => packBit_of_ne h bit,
      fun h => packBit_of_eq h bit⟩
  · obtain ⟨p, hbits, hpush⟩ := foldl_packBit_eight hn false true true false true false false true
    have hp : p = 0x69 := byte_eq_of_bits (hbits.symm.trans (by decide))
    rw [hpush, hp, hq]
    rfl
  · exact ⟨_, modEndDiscardsPartialByte s hh hb hp, rfl, rfl, rfl⟩

/-! ## MOD's turn -/

/-- A step that emits leaves the packer and the queue as PACKBIT of its bit does (R146). -/
theorem internalStep_emit (pol : Polarity) (smp : Int) (m : Mod) :
    (m.internalStep pol smp true).pack = (m.packBit (accStep pol m.a m.b smp).bit).pack ∧
      (m.internalStep pol smp true).nbits = (m.packBit (accStep pol m.a m.b smp).bit).nbits ∧
      (m.internalStep pol smp true).mq = (m.packBit (accStep pol m.a m.b smp).bit).mq := by
  by_cases h : m.nbits = 7 <;> simp [Mod.internalStep, Mod.packBit, h]

theorem modAgent_of_enabled {s : State} (hb : s.mod.busy = true) (hh : s.halted = false)
    (hheld : s.mod.held = false) : modAgent s = s.withMod (s.mod.advance Config.modPolarity) :=
  if_pos ((modEnabled_iff s).2 ⟨hb, hh, hheld⟩)

theorem modAgent_of_not_enabled {s : State} (h : ¬ (s.mod.busy = true ∧ s.halted = false ∧ s.mod.held = false)) :
    modAgent s = s :=
  if_neg (mt (modEnabled_iff s).1 h)

/-- A command with steps left goes on (R151). -/
theorem advance_of_more {pol : Polarity} {m : Mod} (h : m.remain - 1 ≠ 0) :
    (m.advance pol).busy = m.busy ∧ (m.advance pol).kind = m.kind ∧ (m.advance pol).phase = m.phase := by
  obtain ⟨-, -, hphase, hbusy, hkind, -⟩ := internalStep_frame pol m.curS.toInt m.curE m
  rcases advance_cases pol m with ⟨-, e⟩ | ⟨h0, -⟩
  · rw [e]
    exact ⟨hbusy, hkind, hphase⟩
  · exact absurd h0 h

/-- A command whose last step this is ends; MOD_PRIME then leaves PRIMED (R142, R151). -/
theorem advance_of_last {pol : Polarity} {m : Mod} (h : m.remain - 1 = 0) :
    (m.advance pol).busy = false ∧ (m.advance pol).kind = .none ∧
      (m.advance pol).phase = (if m.kind = .prime then .primed else m.phase) := by
  rcases advance_cases pol m with ⟨hne, -⟩ | ⟨-, e⟩
  · exact absurd h hne
  · rw [e]
    exact ⟨rfl, rfl, rfl⟩

/-- A silent step leaves the packer alone (R146). -/
theorem advance_silent {pol : Polarity} {m : Mod} (h : m.curE = false) :
    (m.advance pol).pack = m.pack ∧ (m.advance pol).nbits = m.nbits ∧ (m.advance pol).mq = m.mq := by
  obtain ⟨hp, hn, hq⟩ := advance_packer pol m
  rw [hp, hn, hq, h]
  exact internalStep_silent pol m.curS.toInt m

/-- An emitting step packs its bit (R146, R149). -/
theorem advance_emit {pol : Polarity} {m : Mod} (h : m.curE = true) :
    (m.advance pol).pack = (m.packBit (accStep pol m.a m.b m.curS.toInt).bit).pack ∧
      (m.advance pol).nbits = (m.packBit (accStep pol m.a m.b m.curS.toInt).bit).nbits ∧
      (m.advance pol).mq = (m.packBit (accStep pol m.a m.b m.curS.toInt).bit).mq := by
  obtain ⟨hp, hn, hq⟩ := advance_packer pol m
  rw [hp, hn, hq, h]
  exact internalStep_emit pol m.curS.toInt m

/-- MOD is held exactly when its next step would push into a full queue (R150). -/
theorem held_iff (m : Mod) :
    m.held = true ↔ m.curE = true ∧ m.nbits = 7 ∧ queueFull Config.modOutDepth m.mq = true := by
  simp [Mod.held, and_assoc]

/-- Settles O22: MOD's step, field by field, and the hold. -/
theorem modTurnRunsOneStep : Obligations.ModTurnRunsOneStep := by
  unfold Obligations.ModTurnRunsOneStep
  refine ⟨fun s => ⟨modAgent_of_not_enabled, fun hb hh hheld => ?_⟩, held_iff,
    fun q => ⟨rfl, fun pred => decide_eq_true_iff⟩⟩
  obtain ⟨ha, hb', hovf⟩ := advance_acc Config.modPolarity s.mod
  obtain ⟨hr, hssel, hcurS, hcurE, hremain⟩ := advance_frame Config.modPolarity s.mod
  refine ⟨s.mod.advance Config.modPolarity, modAgent_of_enabled hb hh hheld, ha, hb', hovf, advance_silent,
    fun he => ⟨_, rfl, advance_emit he⟩, hremain, hr, hssel, hcurS, hcurE, fun h0 => ?_, fun h0 => ?_⟩
  · exact advance_of_last (hremain ▸ h0)
  · obtain ⟨hbusy, hkind, hphase⟩ := advance_of_more (pol := Config.modPolarity) (hremain ▸ h0)
    exact ⟨hbusy.trans hb, hkind, hphase⟩

end Sys2Proof.Machine
end

section
/-! SUPPORT. A command of MOD run to its end (40_modulator.md R142, R143, R151): the turns as iterations of MOD's step,
how long the command runs, and what it leaves in the packer and MQ. -/

namespace Sys2Proof.Machine

/-! ## How long a command runs -/

/-- One step fewer is left. -/
theorem toNat_sub_one {w : Word} (h : w.toNat ≠ 0) : (w - 1).toNat = w.toNat - 1 := by
  bv_omega

theorem iterate_advance_succ (pol : Polarity) (k : Nat) (m : Mod) :
    (Mod.advance pol)^[k + 1] m = ((Mod.advance pol)^[k] m).advance pol :=
  Function.iterate_succ_apply' _ k m

/-- Until its last step the command is in progress, with the steps left counted down (R151). -/
theorem iterate_advance_running (pol : Polarity) (m : Mod) {k : Nat} (hk : k < m.remain.toNat) :
    ((Mod.advance pol)^[k] m).busy = m.busy ∧ ((Mod.advance pol)^[k] m).kind = m.kind ∧
      ((Mod.advance pol)^[k] m).phase = m.phase ∧
      ((Mod.advance pol)^[k] m).remain.toNat = m.remain.toNat - k := by
  induction k with
  | zero => exact ⟨rfl, rfl, rfl, rfl⟩
  | succ k ih =>
    obtain ⟨hbusy, hkind, hphase, hleft⟩ := ih (by omega)
    obtain ⟨-, -, -, -, hremain⟩ := advance_frame pol ((Mod.advance pol)^[k] m)
    have hcount := toNat_sub_one (w := ((Mod.advance pol)^[k] m).remain) (by omega)
    have hmore : ((Mod.advance pol)^[k] m).remain - 1 ≠ 0 := by bv_omega
    obtain ⟨hbusy', hkind', hphase'⟩ := advance_of_more (pol := pol) hmore
    rw [iterate_advance_succ]
    exact ⟨hbusy'.trans hbusy, hkind'.trans hkind, hphase'.trans hphase, by rw [hremain, hcount]; omega⟩

/-- After as many steps as it had left the command is over (R151). -/
theorem iterate_advance_done (pol : Polarity) {m : Mod} (h : m.remain ≠ 0) :
    ((Mod.advance pol)^[m.remain.toNat] m).busy = false ∧ ((Mod.advance pol)^[m.remain.toNat] m).kind = .none ∧
      ((Mod.advance pol)^[m.remain.toNat] m).phase = (if m.kind = .prime then .primed else m.phase) ∧
      ((Mod.advance pol)^[m.remain.toNat] m).remain = 0 := by
  obtain ⟨k, hk⟩ := Nat.exists_eq_succ_of_ne_zero (mt (BitVec.eq_of_toNat_eq (y := 0)) h)
  obtain ⟨-, hkind, hphase, hleft⟩ := iterate_advance_running pol m (k := k) (by omega)
  obtain ⟨-, -, -, -, hremain⟩ := advance_frame pol ((Mod.advance pol)^[k] m)
  have hlast : ((Mod.advance pol)^[k] m).remain - 1 = 0 := by bv_omega
  obtain ⟨hbusy', hkind', hphase'⟩ := advance_of_last (pol := pol) hlast
  rw [hk, Nat.succ_eq_add_one, iterate_advance_succ]
  exact ⟨hbusy', hkind', by rw [hphase', hkind, hphase], hremain.trans hlast⟩

/-- Turns of MOD in which it has a step each time are iterations of that step. -/
theorem modTurns_eq_iterate {n : Nat} {s : State} (hh : s.halted = false)
    (hrun : ∀ k, k < n → ((Mod.advance Config.modPolarity)^[k] s.mod).busy = true ∧
      ((Mod.advance Config.modPolarity)^[k] s.mod).held = false) :
    modTurns n s = s.withMod ((Mod.advance Config.modPolarity)^[n] s.mod) := by
  induction n generalizing s with
  | zero => rfl
  | succ n ih =>
    obtain ⟨hbusy, hheld⟩ := hrun 0 n.succ_pos
    rw [modTurns, modAgent_of_enabled hbusy hh hheld]
    exact ih (s := s.withMod (s.mod.advance Config.modPolarity)) hh
      fun k hk => hrun (k + 1) (Nat.succ_lt_succ hk)

/-- A command none of whose steps is held takes one turn of MOD a step (R151). -/
theorem modTurns_of_command {n : Nat} {s : State} (hh : s.halted = false) (hb : s.mod.busy = true)
    (hn : n ≤ s.mod.remain.toNat)
    (hroom : ∀ k, k < s.mod.remain.toNat → ((Mod.advance Config.modPolarity)^[k] s.mod).held = false) :
    modTurns n s = s.withMod ((Mod.advance Config.modPolarity)^[n] s.mod) :=
  modTurns_eq_iterate hh fun k hk =>
    ⟨(iterate_advance_running _ s.mod (hk.trans_le hn)).1.trans hb, hroom k (hk.trans_le hn)⟩

/-! ## A silent command -/

/-- Silent steps leave the packer and MQ alone (R142, R146). -/
theorem iterate_advance_silent (pol : Polarity) {m : Mod} (h : m.curE = false) (k : Nat) :
    ((Mod.advance pol)^[k] m).curE = false ∧ ((Mod.advance pol)^[k] m).pack = m.pack ∧
      ((Mod.advance pol)^[k] m).nbits = m.nbits ∧ ((Mod.advance pol)^[k] m).mq = m.mq := by
  induction k with
  | zero => exact ⟨h, rfl, rfl, rfl⟩
  | succ k ih =>
    obtain ⟨hE, hpack, hbits, hmq⟩ := ih
    obtain ⟨-, -, -, hE', -⟩ := advance_frame pol ((Mod.advance pol)^[k] m)
    obtain ⟨hpack', hbits', hmq'⟩ := advance_silent (pol := pol) hE
    rw [iterate_advance_succ]
    exact ⟨hE'.trans hE, hpack'.trans hpack, hbits'.trans hbits, hmq'.trans hmq⟩

/-- Settles O23: no silent step is held, so the prime takes one turn a step. -/
theorem primeCompletesSilently : Obligations.PrimeCompletesSilently := by
  unfold Obligations.PrimeCompletesSilently
  intro s hh hb hkind hE hremain
  have hsilent := iterate_advance_silent Config.modPolarity hE
  have hturns {n : Nat} (hn : n ≤ s.mod.remain.toNat) :=
    modTurns_of_command hh hb hn fun k _ => held_of_silent (hsilent k).1
  refine ⟨fun k hk => ?_, _, hturns le_rfl, ?_⟩
  · rw [hturns hk.le]
    exact (iterate_advance_running _ s.mod hk).1.trans hb
  · obtain ⟨hbusy, hkind', hphase, hleft⟩ := iterate_advance_done Config.modPolarity hremain
    exact ⟨hphase.trans (if_pos hkind), hbusy, hkind', hleft, (hsilent _).2⟩

/-! ## An emitting command -/

/-- What `k` emitted bits leave behind: whole bytes behind those `m` held, and the rest in the packer (R149). -/
def EmittedBits (m : Mod) (k : Nat) (m' : Mod) : Prop :=
  m'.curE = true ∧ m'.nbits.val = (m.nbits.val + k) % 8 ∧
    ∃ pushed : List Byte, m'.mq = m.mq ++ pushed ∧ pushed.length = (m.nbits.val + k) / 8

/-- An emitting step emits one bit more. -/
theorem EmittedBits.advance {m m' : Mod} {k : Nat} (h : EmittedBits m k m') (pol : Polarity) :
    EmittedBits m (k + 1) (m'.advance pol) := by
  obtain ⟨hE, hbits, pushed, hmq, hlen⟩ := h
  obtain ⟨-, -, -, hE', -⟩ := advance_frame pol m'
  obtain ⟨-, hbits', hmq'⟩ := advance_emit (pol := pol) hE
  refine ⟨hE'.trans hE, ?_⟩
  rw [hbits', hmq']
  by_cases h7 : m'.nbits = 7
  · rw [packBit_of_eq h7]
    have h7v : m'.nbits.val = 7 := by rw [h7]; rfl
    exact ⟨by show 0 = _; omega, _, by rw [hmq, List.append_assoc], by
      rw [List.length_append, List.length_singleton, hlen]; omega⟩
  · rw [packBit_of_ne h7]
    have hval : (m'.nbits + 1).val = m'.nbits.val + 1 := by omega
    exact ⟨by show (m'.nbits + 1).val = _; omega, pushed, hmq, by omega⟩

theorem iterate_advance_emitted (pol : Polarity) {m : Mod} (h : m.curE = true) (k : Nat) :
    EmittedBits m k ((Mod.advance pol)^[k] m) := by
  induction k with
  | zero =>
    have hlt := m.nbits.isLt
    exact ⟨h, (Nat.mod_eq_of_lt hlt).symm, [], (List.append_nil _).symm, (Nat.div_eq_of_lt hlt).symm⟩
  | succ k ih =>
    rw [iterate_advance_succ]
    exact ih.advance pol

/-- Where the queue has room for all the bytes of `n` bits, the step after fewer bits is not held (R150). -/
theorem EmittedBits.not_held {m m' : Mod} {k n : Nat} (h : EmittedBits m k m') (hk : k < n)
    (hroom : ∀ q : List Byte, q.length < m.mq.length + (m.nbits.val + n) / 8 →
      queueFull Config.modOutDepth q = false) :
    m'.held = false := by
  obtain ⟨-, hbits, pushed, hmq, hlen⟩ := h
  by_cases h7 : m'.nbits = 7
  · have h7v : m'.nbits.val = 7 := by rw [h7]; rfl
    have hfull := hroom m'.mq (by rw [hmq, List.length_append]; omega)
    simp [Mod.held, hfull]
  · exact held_of_nbits h7

/-- Settles O24: no step is held, so the command takes one turn a bit. -/
theorem emittingCommandCountsBits : Obligations.EmittingCommandCountsBits := by
  unfold Obligations.EmittingCommandCountsBits
  intro s hh hb hE hremain hroom
  have hemitted := iterate_advance_emitted Config.modPolarity hE
  have hturns := modTurns_of_command hh hb le_rfl fun k hk => (hemitted k).not_held hk hroom
  obtain ⟨hbusy, -⟩ := iterate_advance_done Config.modPolarity hremain
  obtain ⟨-, hbits, pushed, hmq, hlen⟩ := hemitted s.mod.remain.toNat
  exact ⟨_, pushed, hturns, hbusy, hmq, hlen, hbits⟩

end Sys2Proof.Machine
end

section
/-! SUPPORT. The commands of XPT, BSC and STR (41_transport.md R190, R191; 42_storage.md R214, R226, R227;
43_streaming.md R250, R251): what an accepted one does, and when one is refused. -/

namespace Sys2Proof.Machine

section
variable {s : State} (hh : s.halted = false) (hb : s.ioseq.busy = false)
include hh hb

/-- An IO command that passes its checks performs its accept action. -/
theorem exec_io_of_accepted {i : Instr} (hs : s.str.state ≠ .stopped) (hu : i.unit = .io) (hpre : preOf i s = true)
    (harg : argOf i s = true) : exec i s = .next (actOf i s (s.withErr .ok)) := by
  rw [exec_eq_issue, hu, issue_io hh hb hs hpre harg]

/-- An IO command issued to a stopped stream is refused with STATE. -/
theorem exec_io_of_stopped {i : Instr} (hu : i.unit = .io) (hs : s.str.state = .stopped) :
    exec i s = .next { s with err := .state } :=
  exec_of_verdict (by rw [hu]; exact verdict_io_of_stopped _ _ hh hb hs) nofun

/-- An IO command whose state precondition fails is refused with STATE. -/
theorem exec_io_of_pre_false {i : Instr} (hu : i.unit = .io) (hpre : preOf i s = false) :
    exec i s = .next { s with err := .state } :=
  exec_of_verdict (by rw [hu, hpre]; exact verdict_io_of_pre_false _ hh hb) nofun

/-- An IO command whose argument check alone fails is refused with ARG. -/
theorem exec_io_of_arg_false {i : Instr} (hs : s.str.state ≠ .stopped) (hu : i.unit = .io) (hpre : preOf i s = true)
    (harg : argOf i s = false) : exec i s = .next { s with err := .arg } := by
  refine exec_of_verdict ?_ nofun
  simp [verdict, unitBusy, hu, hh, hb, hs, hpre, harg]

end

/-- Settles O14, from the two accept actions. -/
theorem xptCommandsAccepted : Obligations.XptCommandsAccepted := by
  unfold Obligations.XptCommandsAccepted
  intro s hh hb hs
  refine ⟨fun c => exec_io_of_accepted hh hb hs rfl rfl rfl, fun t => ⟨t.setWidth 32, ?_, ?_⟩⟩
  · exact BitVec.toNat_setWidth_of_le (by decide)
  · exact exec_io_of_accepted hh hb hs rfl rfl rfl

theorem sessionReady_eq_false {s : State} (h : s.session ≠ .ready) : sessionReady s = false := beq_false_of_ne h

theorem streamIdle_eq_false {s : State} (h : s.str.state ≠ .idle) : streamIdle s = false := beq_false_of_ne h

/-- STR_START needs a ready card (R251). -/
theorem preOf_strStart_of_not_ready {s : State} (h : s.session ≠ .ready) : preOf .strStart s = false := by
  rw [preOf, sessionReady_eq_false h, Bool.false_and]

/-- STR_START needs a stream that has never started (R251). -/
theorem preOf_strStart_of_not_idle {s : State} (h : s.str.state ≠ .idle) : preOf .strStart s = false := by
  rw [preOf, streamIdle_eq_false h, Bool.and_false]

/-- Settles O19: the first check that fails gives the code. -/
theorem ioCommandRefusals : Obligations.IoCommandRefusals := by
  unfold Obligations.IoCommandRefusals
  intro s hh
  refine ⟨fun i hu hb => ?busy, fun hb => ⟨fun i hu hs => ?stopped, fun hr => ?init,
    fun d hr => ⟨?read, ?write⟩, fun hs => ⟨?cfg, ?running⟩, fun hr => ?notReady, fun hr hs hmax => ?max⟩⟩
  case busy => exact exec_of_verdict (verdict_of_busy _ _ hh (by rw [hu]; exact hb)) nofun
  case stopped => exact exec_io_of_stopped hh hb hu hs
  case init => exact exec_io_of_pre_false hh hb rfl (by simp [preOf, sessionReady, hr])
  case read => exact exec_io_of_pre_false hh hb rfl (sessionReady_eq_false hr)
  case write => exact exec_io_of_pre_false hh hb rfl (sessionReady_eq_false hr)
  case cfg => exact exec_io_of_pre_false hh hb rfl (streamIdle_eq_false hs)
  case running => exact exec_io_of_pre_false hh hb rfl (preOf_strStart_of_not_idle hs)
  case notReady => exact exec_io_of_pre_false hh hb rfl (preOf_strStart_of_not_ready hr)
  case max =>
    have hpre : preOf .strStart s = true := by simp [preOf, sessionReady, streamIdle, hr, hs]
    exact exec_io_of_arg_false hh hb (by simp [hs]) rfl hpre (decide_eq_false (by omega))

end Sys2Proof.Machine
end

section
/-! SUPPORT. The byte exchange (41_transport.md R192, R193, R195) and the lines of IOSEQ that make one: what each line
leaves, and that a byte received while the card is deselected decides nothing. -/

namespace Sys2Proof.Machine

/-! ## Bit cycles -/

/-- Settles O29: eight cycles put each bit of the card's byte in its place, and the lines come to rest. -/
theorem bitCyclesGiveExchange : Obligations.BitCyclesGiveExchange := by
  unfold Obligations.BitCyclesGiveExchange
  intro tx rx x
  obtain ⟨hcs, -, htx, hbits⟩ := shiftBits_spec 8 rx { x with tx := tx, bit := 8 } le_rfl
  obtain ⟨hsck, hbit⟩ := shiftBits_idle 7 rx { x with tx := tx, bit := 8 }
  have hrx : (Xpt.shiftBits 8 rx { x with tx := tx, bit := 8 }).rx = rx :=
    BitVec.eq_of_getLsbD_eq fun j hj => by rw [hbits j hj, if_pos hj]
  simp only [Xpt.shiftByte, Xpt.mk.injEq]
  exact ⟨hcs, hsck, trivial, hrx, hbit, htx, hrx⟩

/-! ## The lines of IOSEQ -/

theorem goto_of_pos {s : State} {p : IoPos} (hp : s.ioseq.pos = p) : s.goto p = s := by
  subst hp; rfl

/-- A turn of IOSEQ at a line other than L1 takes that line's step; with the line written into the state the step
is found by evaluation. -/
theorem ioAgent_at {s : State} {p : IoPos} (hh : s.halted = false) (hp : s.ioseq.pos = p) (h1 : p ≠ .idle)
    (h2 : p ≠ .l1) : ioAgent s = ioStep (s.goto p) := by
  rw [ioAgent_eq hh hp h1 h2, goto_of_pos hp]

/-- A line that makes its exchange and then chooses where to go on (R211, R222, R223, R225). -/
theorem xfer_goto_ite (tx : Byte) (c : Prop) [Decidable c] (p q : IoPos) (s : State) :
    (if c then (xfer tx s).goto p else (xfer tx s).goto q) = afterExchange tx (if c then p else q) s :=
  (apply_ite (fun p => afterExchange tx p s) c p q).symm

/-- Without a procedure IOSEQ has no step (10_state.md R42). -/
theorem ioAgent_idle {s : State} (hp : s.ioseq.pos = .idle) : ioAgent s = s := by
  simp [ioAgent, ioEnabled, hp]

/-- The exchange an event of the card's lines records, if it is one (R198). -/
def BusEvent.exchange? : BusEvent → Option Exchange
  | .xfer x => some x
  | .cs _ => none

theorem exchanges_eq_filterMap (es : List BusEvent) : exchanges es = es.filterMap BusEvent.exchange? := by
  induction es with
  | nil => rfl
  | cons e es ih =>
    cases e with
    | cs _ => exact ih
    | xfer x => exact congrArg (x :: ·) ih

theorem cardAnswer_of_undecided {s : State} (tx : Byte) (h : s.env.cardScript = []) :
    cardAnswer tx s = Config.card s.history s.xpt.csN tx := by
  rw [cardAnswer, h]

theorem cardAnswer_of_decided {s : State} {b : Byte} {bs : List Byte} (tx : Byte) (h : s.env.cardScript = b :: bs) :
    cardAnswer tx s = b := by
  rw [cardAnswer, h]

/-- Settles O30: at each line the turn is the line's step; the polls choose where to go on, and W4 sends the byte it
reads. -/
theorem exchangeLines : Obligations.ExchangeLines := by
  unfold Obligations.ExchangeLines
  refine ⟨fun s hh => ?lines, ?returns, fun s hp => ioAgent_idle hp, fun s tx => ?answer, rfl, rfl, rfl, rfl⟩
  case returns => exact fun _ _ _ => ⟨rfl, rfl, rfl, rfl, rfl, rfl, rfl, rfl, rfl, rfl, rfl, rfl, rfl, rfl, rfl⟩
  case answer =>
    exact ⟨cardAnswer_of_undecided tx, fun _ _ => cardAnswer_of_decided tx, exchanges_eq_filterMap _⟩
  case lines =>
    refine ⟨fun hp => ?xpt1, fun hp => ?i1cs, fun n hp => ?i1clk, fun k hp => ?s1, fun k hp => ?s2, fun k hp => ?s3,
      fun k hp => ?s4, fun k hp => ?s5, fun k hp => ?s6, fun k hp => ?s7, fun k hp => ?s8, fun n hp => ?i3trail,
      fun k hp => ?e1, fun k hp => ?e2, fun c hp => ?rd1, fun c hp => ?rd3, fun c i hp => ?rd4, fun c hp => ?crc1,
      fun c hp => ?crc2, fun hp => ?w1, fun hp => ?w3, fun i hp => ?w4, fun hp => ?w5, fun hp => ?w7,
      fun hp => ?readReturn, fun hp => ?writeReturn⟩
    case s8 | rd3 | w5 | w7 => exact (ioAgent_at hh hp nofun nofun).trans (xfer_goto_ite _ _ _ _ _)
    case w4 => exact ioAgent_w4 hh hp
    all_goals exact ioAgent_at hh hp nofun nofun

/-! ## Bytes received while deselected -/

theorem forgetReceived_ioseq (s : State) : (forgetReceived s).ioseq = s.ioseq := rfl

theorem ioEnabled_forgetReceived (s : State) : ioEnabled (forgetReceived s) = ioEnabled s := rfl

/-- A status test reads no byte received but the status IO_POS keeps. -/
theorem forgetReceived_stepTest (k : Site) (r : Byte) (s : State) :
    forgetReceived (stepTest k r s) = forgetReceived (stepTest k r (forgetReceived s)) := by
  cases k <;> simp only [stepTest] <;> split_ifs <;> rfl

/-- Outside a bracket no line of IOSEQ uses a byte received: the polls and the data bytes stand inside one (R195). -/
theorem forgetReceived_ioStep {s : State} (h : s.ioseq.pos.inBracket = false) :
    forgetReceived (ioStep s) = forgetReceived (ioStep (forgetReceived s)) := by
  cases hp : s.ioseq.pos <;> rw [hp] at h <;> simp only [ioStep, forgetReceived_ioseq, hp]
  case send k p =>
    cases p with
    | s1 => rfl
    | _ => cases h
  case close k p =>
    cases p with
    | e1 => cases h
    | e2 => rfl
  case test k r => exact forgetReceived_stepTest k r s
  case l5 => simp only [stepL5, apply_ite forgetReceived]; rfl
  case rd3 | rd4 | rd5 | i3trail | w3 | w4 | w5 | w6 | w7 => cases h
  all_goals rfl

theorem forgetReceived_ioAgent {s : State} (h : s.ioseq.pos.inBracket = false) :
    forgetReceived (ioAgent s) = forgetReceived (ioAgent (forgetReceived s)) := by
  rw [ioAgent, ioAgent, ioEnabled_forgetReceived]
  split
  · exact forgetReceived_ioStep h
  · rfl

/-- Settles O60: with the card deselected IOSEQ stands outside a bracket, and the two states forgotten are one. -/
theorem deselectedBytesIgnored : Obligations.DeselectedBytesIgnored := by
  unfold Obligations.DeselectedBytesIgnored
  intro s b b' rest hsel hcs
  have hpos : s.ioseq.pos.inBracket = false := by
    by_contra hin
    exact absurd (hsel (by simpa using hin)) (by simp [hcs])
  have hforget : ∀ bs, forgetReceived (ioAgent { s with env := { s.env with cardScript := bs } }) =
      forgetReceived (ioAgent (forgetReceived s)) := fun _ => forgetReceived_ioAgent hpos
  exact (hforget _).trans (hforget _).symm

end Sys2Proof.Machine
end

section
/-! SUPPORT. BSC's commands (42_storage.md R214, R226, R227), the lines of INIT and of a sector write that decide
(R214, R216 to R221, R224), and who writes SESSION (R229). -/

namespace Sys2Proof.Machine

/-! ## Commands -/

/-- Settles O15, from the accept action. -/
theorem bscInitStarts : Obligations.BscInitStarts := by
  unfold Obligations.BscInitStarts
  intro s hh hb hs hr
  exact exec_io_of_accepted hh hb hs (i := .bscInit) rfl (by simp [preOf, sessionReady, hr]) rfl

/-- Settles O16, from the two accept actions. -/
theorem bscReadWriteStart : Obligations.BscReadWriteStart := by
  unfold Obligations.BscReadWriteStart
  intro s d hh hb hs hr
  have ready : sessionReady s = true := beq_iff_eq.2 hr
  exact ⟨exec_io_of_accepted hh hb hs (i := .bscRead d) rfl ready rfl,
    exec_io_of_accepted hh hb hs (i := .bscWrite d) rfl ready rfl⟩

/-! ## The lines of INIT that decide -/

/-- A line that only chooses where to go on. -/
theorem goto_ite (c : Prop) [Decidable c] (p q : IoPos) (s : State) :
    (if c then s.goto p else s.goto q) = s.goto (if c then p else q) :=
  (apply_ite s.goto c p q).symm

/-- A CMD0 status: CMD8, the next attempt while one is left, or the end of INIT (R217). -/
theorem stepTest_cmd0 (n : Nat) (r : Byte) (s : State) :
    stepTest (.cmd0 n) r s =
      s.goto
        (if r = 0x01 then .send .cmd8 .s1
          else if n < 10 then .send (.cmd0 (n + 1)) .s1 else .initReturn (some .cmd0)) := by
  rw [← goto_ite, ← goto_ite]
  rfl

/-- Settles O37: each line is a change of IO_POS, an exchange with one, or the record of INIT's result. -/
theorem initLines : Obligations.InitLines := by
  unfold Obligations.InitLines
  intro s hh
  refine ⟨fun n r hp => ?cmd0, fun r hp => ?cmd8, fun r hp => ?cmd55, fun r hp => ?acmd41, fun r hp => ?cmd16,
    fun n hp => ?clock, fun n hp => ?trail, fun f hp => ?result⟩
  case cmd0 => exact (ioAgent_at hh hp nofun nofun).trans (stepTest_cmd0 n r s)
  case cmd8 | cmd55 | acmd41 | cmd16 => exact (ioAgent_at hh hp nofun nofun).trans (goto_ite _ _ _ s)
  case clock | trail => rw [ioAgent_at hh hp nofun nofun]; rfl
  case result => cases f <;> exact ioAgent_at hh hp nofun nofun

/-! ## The data response -/

section
variable {t : Byte}

/-- A response whose bit 0 is clear is none (R224). -/
theorem dataResponse_of_bit0_clear (h : (t &&& 0x1F).getLsbD 0 = false) :
    dataResponse t = some .invalidDataResponse :=
  if_pos h

/-- The low five bits of a response decide its outcome (R224). -/
theorem dataResponse_eq_of_low5 {u : Byte} (h : t &&& 0x1F = u &&& 0x1F) : dataResponse t = dataResponse u := by
  simp only [dataResponse, h]

/-- A response none of the checks knows (R224). -/
theorem dataResponse_of_unknown (h0 : (t &&& 0x1F).getLsbD 0 = true) (hcrc : t &&& 0x1F ≠ 0x0B)
    (hwrite : t &&& 0x1F ≠ 0x0D) (haccept : t &&& 0x1F ≠ 0x05) : dataResponse t = some .unknownError :=
  (if_neg (ne_false_of_eq_true h0)).trans ((if_neg hcrc).trans ((if_neg hwrite).trans (if_pos haccept)))

variable {s : State} (hh : s.halted = false) (hp : s.ioseq.pos = .w6 t)
include hh hp

/-- W6 raises the fatal error its response names (R224). -/
theorem ioAgent_w6_of_fatal {c : FatalCode} (h : dataResponse t = some c) : ioAgent s = raiseFatal c s := by
  rw [ioAgent_eq hh hp nofun nofun, ioStep, hp]
  simp only [stepW6, h]

/-- W6 goes on at W7 where the data is accepted (R224). -/
theorem ioAgent_w6_of_accepted (h : dataResponse t = none) : ioAgent s = s.goto .w7 := by
  rw [ioAgent_eq hh hp nofun nofun, ioStep, hp]
  simp only [stepW6, h]

end

/-- Settles O34, check by check; the table's examples by evaluation. -/
theorem dataResponseOutcome : Obligations.DataResponseOutcome := by
  unfold Obligations.DataResponseOutcome
  refine ⟨fun s t hh hp => ⟨fun h => ?bit0, fun h => ?crc, fun h => ?write, fun h0 hc hw ha => ?unknown,
    fun h => ?accepted⟩, by decide⟩
  case bit0 => exact ioAgent_w6_of_fatal hh hp (dataResponse_of_bit0_clear h)
  case crc => exact ioAgent_w6_of_fatal hh hp (dataResponse_eq_of_low5 (u := 0x0B) h)
  case write => exact ioAgent_w6_of_fatal hh hp (dataResponse_eq_of_low5 (u := 0x0D) h)
  case unknown => exact ioAgent_w6_of_fatal hh hp (dataResponse_of_unknown h0 hc hw ha)
  case accepted => exact ioAgent_w6_of_accepted hh hp (dataResponse_eq_of_low5 (u := 0x05) h)

/-! ## SESSION -/

/-- BSC_INIT, not from `Ready`, is the only command that writes SESSION (R214). -/
theorem actOf_session {i : Instr} {s : State} (hpre : preOf i s = true) (s' : State) :
    (i = .bscInit ∧ s.session ≠ .ready ∧ (actOf i s s').session = .uninitialized) ∨
      (actOf i s s').session = s'.session := by
  cases i with
  | bscInit => exact .inl ⟨rfl, by simpa [preOf, sessionReady] using hpre, rfl⟩
  | _ => exact .inr rfl

/-- A status test does not touch SESSION. -/
theorem stepTest_session (k : Site) (r : Byte) (s : State) : (stepTest k r s).session = s.session := by
  cases k <;> simp only [stepTest, apply_ite State.session, State.goto_session, raiseFatal_session, ite_self]

/-- Everything IOSEQ's step can do to SESSION: INIT's return records its result, no other line touches it (R214). -/
theorem ioStep_session (s : State) :
    (ioStep s).session = s.session ∨
      ∃ f, s.ioseq.pos = .initReturn f ∧ (ioStep s).session = initSession f := by
  cases hp : s.ioseq.pos <;> simp only [ioStep, hp]
  case idle => exact .inl trivial
  case initReturn f => exact .inr ⟨f, rfl, rfl⟩
  all_goals left
  case send k p =>
    cases p with
    | s8 => simp only [stepSend, stepPoll]; split <;> rfl
    | _ => rfl
  case test k r => exact stepTest_session k r s
  case close k p => cases p <;> rfl
  case rd3 => simp only [stepRd3]; split <;> rfl
  case w4 => exact readCell_session _ s
  case w5 => simp only [stepW5]; split <;> rfl
  case w6 => unfold stepW6; split <;> rfl
  case w7 => simp only [stepW7]; split <;> rfl
  case l5 => unfold stepL5; split <;> rfl
  all_goals rfl

/-- Settles O38: BSC_INIT, INIT's return and the reset event are the only writers. -/
theorem sessionTransitions : Obligations.SessionTransitions := by
  unfold Obligations.SessionTransitions
  intro s t hinit h
  rcases step_cases h with ⟨level, hn, rfl⟩ | ⟨_, _, rfl⟩ | ⟨_, _, rfl⟩ | ⟨hn, _, rfl⟩ | ⟨_, _, rfl⟩ |
    ⟨off, bytes, _, rfl⟩ | ⟨off, bytes, v, hn, hw⟩ | rfl
  · rcases setRstN_cases level s.takeTurn with ⟨_, e⟩ | ⟨rfl, hr, e⟩ <;> rw [e]
    · exact .inl rfl
    · exact .inr (.inl ⟨rfl, hn, hr⟩)
  · exact .inl rfl
  · exact .inl rfl
  · rcases ioStep_session s.takeTurn with e | ⟨f, hp, e⟩
    · exact .inl e
    · have hp' : s.ioseq.pos = .initReturn f := hp
      exact .inr (.inr (.inr ⟨hinit (by rw [hp']; rfl), hn, f, hp', by rw [e]; cases f <;> rfl⟩))
  · exact .inl (drainStep_sameControl s.takeTurn).session
  · exact .inl (deliver_sameControl off bytes s.takeTurn).session
  · rcases busWrite_next hw with ⟨rfl, rfl, i, hd, hv, rfl⟩ | ⟨_, _, _, rfl⟩ | rfl | ⟨_, _, _, rfl⟩ | rfl
    · obtain ⟨-, -, -, hpre, -⟩ := (verdict_eq_ok _ _ _ _).1 hv
      rcases actOf_session hpre (s.takeTurn.withErr .ok) with ⟨rfl, hne, e⟩ | e
      · have hword : v = 0x00000030 := (encode_of_decode hd).1.symm
        exact .inr (.inr (.inl ⟨hne, e, hword ▸ hn⟩))
      · exact .inl e
    all_goals exact .inl rfl
  · exact .inl rfl

end Sys2Proof.Machine
end

section
/-! SUPPORT. Lines of IOSEQ that exchange bytes one after the other (41_transport.md R192): the frame of SEND_CMD
(42_storage.md R210) and the data of a sector read and a sector write (R222, R223). -/

namespace Sys2Proof.Machine

/-! ## Exchanges one after the other -/

/-- `t` comes from `s` by the exchanges `xs`, made at the select of `s`, and stands at `p`; MOD, STR and the other
registers of IOSEQ are those of `s`. -/
structure Transfers (s : State) (xs : List Exchange) (p : IoPos) (t : State) : Prop where
  history : t.history = s.history ++ xs
  csN : t.xpt.csN = s.xpt.csN
  levels : ∀ x ∈ xs, x.csN = s.xpt.csN
  ioseq : t.ioseq = { s.ioseq with pos := p }
  mod : t.mod = s.mod
  str : t.str = s.str

theorem Transfers.nil {s : State} {p : IoPos} (hp : s.ioseq.pos = p) : Transfers s [] p s :=
  ⟨(List.append_nil _).symm, rfl, nofun, by subst hp; rfl, rfl, rfl⟩

theorem transfers_afterExchange (tx : Byte) (p : IoPos) (s : State) :
    Transfers s [⟨s.xpt.csN, tx, cardAnswer tx s⟩] p (afterExchange tx p s) :=
  ⟨xfer_history tx s, rfl, by simp, rfl, rfl, rfl⟩

/-- The buffers are no part of what the exchanges keep. -/
theorem Transfers.withBufs {s t : State} {xs : List Exchange} {p : IoPos} (h : Transfers s xs p t) (m : Memory) :
    Transfers s xs p (t.withBufs m) :=
  ⟨h.history, h.csN, h.levels, h.ioseq, h.mod, h.str⟩

theorem Transfers.cons {s u t : State} {x : Exchange} {xs : List Exchange} {p q : IoPos}
    (h : Transfers s [x] q u) (ht : Transfers u xs p t) : Transfers s (x :: xs) p t where
  history := by rw [ht.history, h.history, List.append_assoc, List.singleton_append]
  csN := ht.csN.trans h.csN
  levels := List.forall_mem_cons.2
    ⟨h.levels x (List.mem_singleton_self x), fun y hy => (ht.levels y hy).trans h.csN⟩
  ioseq := by rw [ht.ioseq, h.ioseq]
  mod := ht.mod.trans h.mod
  str := ht.str.trans h.str

/-! ## The frame of SEND_CMD -/

/-- The state after lines that each exchange a byte and go on at a line. -/
def afterExchanges : List (Byte × IoPos) → State → State
  | [], s => s
  | (tx, p) :: ls, s => afterExchanges ls (afterExchange tx p s)

theorem afterExchanges_transfers (ls : List (Byte × IoPos)) (s : State) :
    ∃ xs p, Transfers s xs p (afterExchanges ls s) ∧ xs.map Exchange.tx = ls.map Prod.fst := by
  induction ls generalizing s with
  | nil => exact ⟨[], _, .nil rfl, rfl⟩
  | cons l ls ih =>
    obtain ⟨xs, p, ht, hxs⟩ := ih (afterExchange l.1 l.2 s)
    exact ⟨_ :: xs, p, (transfers_afterExchange l.1 l.2 s).cons ht, congrArg (l.1 :: ·) hxs⟩

/-- The line after a line of the frame (R210). -/
def SendPos.next : SendPos → SendPos
  | .s1 => .s2
  | .s2 => .s3
  | .s3 => .s4
  | .s4 => .s5
  | .s5 => .s6
  | .s6 => .s7
  | .s7 => .s8
  | .s8 => .s8

/-- S2 to S7 send their byte and go on at the next line (R210). -/
theorem ioAgent_frame {s : State} {k : Site} {p : SendPos} (hp : s.ioseq.pos = .send k p) (hh : s.halted = false)
    (h1 : p ≠ .s1) (h8 : p ≠ .s8) : ioAgent s = afterExchange (sendByte k p s) (.send k p.next) s := by
  cases p with
  | s1 => exact absurd rfl h1
  | s8 => exact absurd rfl h8
  | _ => exact ioAgent_at hh hp nofun nofun

theorem ioTurns_succ_of_turn {n : Nat} {s u t : State} (h : ioAgent s = u) (ht : ioTurns n u = t) :
    ioTurns (n + 1) s = t := by
  rw [ioTurns, h, ht]

/-- Seven turns from S1: the select, then the six bytes of the frame (R210). -/
theorem ioTurns_send {s : State} {k : Site} (hh : s.halted = false) (hp : s.ioseq.pos = .send k .s1) :
    ioTurns 7 s =
      afterExchanges
        [(sendByte k .s2 s, .send k .s3), (sendByte k .s3 s, .send k .s4), (sendByte k .s4 s, .send k .s5),
          (sendByte k .s5 s, .send k .s6), (sendByte k .s6 s, .send k .s7), (sendByte k .s7 s, .send k .s8)]
        (afterSelect false (.send k .s2) s) := by
  refine ioTurns_succ_of_turn (u := afterSelect false (.send k .s2) s) (ioAgent_at hh hp nofun nofun) ?_
  iterate 6 refine ioTurns_succ_of_turn (ioAgent_frame rfl hh nofun nofun) ?_
  rfl

/-- Settles O31: the seven turns, their exchanges, and the constants of each call site. -/
theorem sendCmdSendsFrame : Obligations.SendCmdSendsFrame := by
  unfold Obligations.SendCmdSendsFrame
  refine ⟨fun s k hh hp => ?frame, fun s n c => ⟨rfl, rfl, rfl, rfl, rfl, rfl, rfl, rfl, rfl, rfl, rfl, rfl⟩⟩
  rw [ioTurns_send hh hp]
  obtain ⟨xs, p, ht, hxs⟩ := afterExchanges_transfers _ (afterSelect false (.send k .s2) s)
  exact ⟨rfl, rfl, rfl, rfl, rfl, xs, ht.history.trans (congrArg (· ++ xs) (setCs_history false s)), ht.levels, hxs⟩

/-! ## The data of a sector -/

/-- The line of a data loop at byte `i`, and the line after the last byte. -/
def dataLine (line : SectorIdx → IoPos) (after : IoPos) (i : Nat) : IoPos :=
  if h : i < 512 then line ⟨i, h⟩ else after

theorem dataLine_of_lt {line : SectorIdx → IoPos} {after : IoPos} {i : Nat} (h : i < 512) :
    dataLine line after i = line ⟨i, h⟩ :=
  dif_pos h

/-- Where a data loop goes on after byte `i` (R222, R223). -/
theorem dataLine_next (line : SectorIdx → IoPos) (after : IoPos) (i : SectorIdx) :
    (if i = 511 then after else line (i + 1)) = dataLine line after (i.val + 1) := by
  split
  · next h => subst h; rfl
  · next h =>
    have hlast : i < Fin.last 511 := Fin.lt_last_iff_ne_last.2 h
    have hlt : i.val + 1 < 512 := Nat.succ_lt_succ hlast
    rw [dataLine_of_lt hlt]
    exact congrArg line (Fin.ext (Fin.val_add_one_of_lt hlast))

/-- What holds of the first exchange and of each later one holds of them all, by the byte each carries. -/
theorem forall_cons_exchange {P : SectorIdx → Option Exchange → Prop} {i : SectorIdx} {x : Exchange}
    {xs : List Exchange} (hx : P i (some x)) (hxs : ∀ j : SectorIdx, i.val + 1 ≤ j.val → P j xs[j.val - (i.val + 1)]?)
    (j : SectorIdx) (hj : i.val ≤ j.val) : P j (x :: xs)[j.val - i.val]? := by
  rcases hj.eq_or_lt with e | hlt
  · obtain rfl : i = j := Fin.ext e
    simpa using hx
  · have hsub : j.val - i.val = j.val - (i.val + 1) + 1 := by omega
    rw [hsub, List.getElem?_cons_succ]
    exact hxs j hlt

/-! ## A sector read -/

/-- From byte `i` to the end of the sector, the exchanges `xs` took the bytes of the card into buffer `d`. -/
structure SectorRead (d : BufIdx) (i : Nat) (s : State) (xs : List Exchange) (t : State) : Prop where
  length : xs.length = 512 - i
  fill : ∀ x ∈ xs, x.tx = 0xFF
  stored : ∀ j : SectorIdx, i ≤ j.val →
    Memory.read t.bufs (cellAddr d j) = (xs[j.val - i]?).map Exchange.rx
  others : ∀ a, (∀ j : SectorIdx, i ≤ j.val → a ≠ cellAddr d j) → Memory.read t.bufs a = Memory.read s.bufs a

theorem SectorRead.done (d : BufIdx) (s : State) : SectorRead d 512 s [] s :=
  ⟨rfl, nofun, fun j hj => absurd j.isLt (by omega), fun _ _ => rfl⟩

/-- One byte stored in its cell, then the rest of the sector. -/
theorem SectorRead.cons {d : BufIdx} {i : SectorIdx} {s u t : State} {x : Exchange} {xs : List Exchange}
    (h : SectorRead d (i.val + 1) u xs t) (hx : x.tx = 0xFF)
    (hu : u.bufs = Memory.write s.bufs (cellAddr d i) x.rx) : SectorRead d i.val s (x :: xs) t where
  length := by rw [List.length_cons, h.length]; omega
  fill := List.forall_mem_cons.2 ⟨hx, h.fill⟩
  stored := by
    refine forall_cons_exchange (P := fun j y => Memory.read t.bufs (cellAddr d j) = y.map Exchange.rx) ?_ h.stored
    have later : ∀ j : SectorIdx, i.val + 1 ≤ j.val → cellAddr d i ≠ cellAddr d j := by
      intro j hj e
      obtain rfl : i = j := (cellAddr_inj d d i j e).2
      omega
    rw [h.others _ later, hu, Memory.read_write_same, Option.map_some]
  others := by
    intro a ha
    rw [h.others a fun j hj => ha j (by omega), hu, Memory.read_write_other _ _ _ _ (ha i le_rfl)]

/-- RD4 exchanges the fill byte and stores the byte received (R222). -/
theorem ioAgent_rd4 {s : State} {c : ReadFor} {i : SectorIdx} (hh : s.halted = false) (hp : s.ioseq.pos = .rd4 c i) :
    ioAgent s =
      (afterExchange 0xFF (dataLine (.rd4 c) (.rd5 c false) (i.val + 1)) s).withBufs
        (Memory.write s.bufs (cellAddr (readBuf c s) i) (cardAnswer 0xFF s)) := by
  rw [← dataLine_next]
  exact ioAgent_at hh hp nofun nofun

/-- The destination of a read is latched in IOSEQ (R226; 43_streaming.md R254). -/
theorem readBuf_afterExchange (c : ReadFor) (tx : Byte) (p : IoPos) (m : Memory) (s : State) :
    readBuf c ((afterExchange tx p s).withBufs m) = readBuf c s := by
  cases c <;> rfl

/-- The rest of a sector read, by induction on the bytes left. -/
theorem ioTurns_rd4 {n i : Nat} {s : State} {c : ReadFor} (hi : i + n = 512) (hh : s.halted = false)
    (hp : s.ioseq.pos = dataLine (.rd4 c) (.rd5 c false) i) :
    ∃ xs, Transfers s xs (.rd5 c false) (ioTurns n s) ∧ SectorRead (readBuf c s) i s xs (ioTurns n s) := by
  induction n generalizing i s with
  | zero =>
    obtain rfl : i = 512 := hi
    exact ⟨[], .nil hp, .done _ s⟩
  | succ n ih =>
    have hlt : i < 512 := by omega
    rw [dataLine_of_lt hlt] at hp
    rw [ioTurns, ioAgent_rd4 hh hp]
    obtain ⟨xs, ht, hr⟩ := ih
      (s := (afterExchange 0xFF (dataLine (.rd4 c) (.rd5 c false) (i + 1)) s).withBufs
        (Memory.write s.bufs (cellAddr (readBuf c s) ⟨i, hlt⟩) (cardAnswer 0xFF s)))
      (i := i + 1) (by omega) hh rfl
    rw [readBuf_afterExchange] at hr
    exact ⟨_ :: xs, ((transfers_afterExchange _ _ s).withBufs _).cons ht, hr.cons (i := ⟨i, hlt⟩) rfl rfl⟩

/-- Settles O32: the data loop from byte i, and the buffer of each caller. -/
theorem readFillsBuffer : Obligations.ReadFillsBuffer := by
  unfold Obligations.ReadFillsBuffer
  refine ⟨fun s c i hh hp => ?_, fun s => ⟨rfl, rfl, rfl, rfl⟩⟩
  obtain ⟨xs, ht, hr⟩ := ioTurns_rd4 (n := 512 - i.val) (by omega) hh (hp.trans (dataLine_of_lt i.isLt).symm)
  exact ⟨xs, ht.history, hr.length, hr.fill, hr.stored, hr.others, ht.ioseq, ht.mod, ht.str⟩

/-! ## A sector write -/

/-- From byte `i` to the end of the sector, the exchanges `xs` sent the cells of buffer `d`, which were written. -/
structure SectorWrite (d : BufIdx) (i : Nat) (s : State) (xs : List Exchange) (t : State) : Prop where
  length : xs.length = 512 - i
  sent : ∀ j : SectorIdx, i ≤ j.val → (xs[j.val - i]?).map Exchange.tx = Memory.read s.bufs (cellAddr d j)
  bufs : t.bufs = s.bufs
  mfault : t.mfault = s.mfault

theorem SectorWrite.done (d : BufIdx) (s : State) : SectorWrite d 512 s [] s :=
  ⟨rfl, fun j hj => absurd j.isLt (by omega), rfl, rfl⟩

/-- One cell sent, then the rest of the sector. -/
theorem SectorWrite.cons {d : BufIdx} {i : SectorIdx} {s u t : State} {x : Exchange} {xs : List Exchange}
    (h : SectorWrite d (i.val + 1) u xs t) (hx : Memory.read s.bufs (cellAddr d i) = some x.tx)
    (hb : u.bufs = s.bufs) (hf : u.mfault = s.mfault) : SectorWrite d i.val s (x :: xs) t where
  length := by rw [List.length_cons, h.length]; omega
  sent := forall_cons_exchange (P := fun j y => y.map Exchange.tx = Memory.read s.bufs (cellAddr d j)) hx.symm
    (hb ▸ h.sent)
  bufs := h.bufs.trans hb
  mfault := h.mfault.trans hf

/-- W4 sends the byte of its cell where that is written (R223). -/
theorem ioAgent_w4_written {s : State} {i : SectorIdx} {b : Byte} (hh : s.halted = false) (hp : s.ioseq.pos = .w4 i)
    (hb : Memory.read s.bufs (cellAddr s.ioseq.d i) = some b) :
    ioAgent s = afterExchange b (dataLine .w4 .w5 (i.val + 1)) s := by
  rw [ioAgent_w4 hh hp, readCell_written hb, dataLine_next]

/-- The rest of a sector write, by induction on the bytes left. -/
theorem ioTurns_w4 {n i : Nat} {s : State} (hi : i + n = 512) (hh : s.halted = false)
    (hp : s.ioseq.pos = dataLine .w4 .w5 i)
    (hw : ∀ j : SectorIdx, i ≤ j.val → ∃ b, Memory.read s.bufs (cellAddr s.ioseq.d j) = some b) :
    ∃ xs, Transfers s xs .w5 (ioTurns n s) ∧ SectorWrite s.ioseq.d i s xs (ioTurns n s) := by
  induction n generalizing i s with
  | zero =>
    obtain rfl : i = 512 := hi
    exact ⟨[], .nil hp, .done _ s⟩
  | succ n ih =>
    have hlt : i < 512 := by omega
    rw [dataLine_of_lt hlt] at hp
    obtain ⟨b, hb⟩ := hw ⟨i, hlt⟩ le_rfl
    rw [ioTurns, ioAgent_w4_written hh hp hb]
    obtain ⟨xs, ht, hs⟩ := ih (s := afterExchange b (dataLine .w4 .w5 (i + 1)) s) (i := i + 1) (by omega) hh rfl
      fun j hj => hw j (by omega)
    exact ⟨_ :: xs, (transfers_afterExchange b _ s).cons ht, hs.cons (i := ⟨i, hlt⟩) hb rfl rfl⟩

/-- Settles O33: the data loop from byte i. -/
theorem writeSendsBuffer : Obligations.WriteSendsBuffer := by
  unfold Obligations.WriteSendsBuffer
  intro s i hh hp hw
  obtain ⟨xs, ht, hs⟩ := ioTurns_w4 (n := 512 - i.val) (by omega) hh (hp.trans (dataLine_of_lt i.isLt).symm) hw
  exact ⟨xs, ht.history, hs.length, hs.sent, hs.bufs, hs.mfault, ht.ioseq, ht.mod, ht.str⟩

end Sys2Proof.Machine
end

section
/-! SUPPORT. STR's commands (43_streaming.md R250, R251) and the lines of priming and of the refill loop (R252, R254,
R255). -/

namespace Sys2Proof.Machine

/-! ## Commands -/

/-- Settles O17, from the accept action. -/
theorem strCfgSetsMax : Obligations.StrCfgSetsMax := by
  unfold Obligations.StrCfgSetsMax
  intro s hh hb hs
  exact exec_io_of_accepted hh hb (by simp [hs]) (i := .strCfg) rfl (beq_iff_eq.2 hs) rfl

/-- Settles O18, from the accept action. -/
theorem strStartPrimes : Obligations.StrStartPrimes := by
  unfold Obligations.StrStartPrimes
  intro s hh hb hs hr hmax
  have hpre : preOf .strStart s = true := by simp [preOf, sessionReady, streamIdle, hr, hs]
  exact exec_io_of_accepted hh hb (by simp [hs]) rfl hpre (decide_eq_true hmax)

/-! ## Lines -/

/-- The other buffer is `1 - d` (R254). -/
theorem otherBuf_eq (d : BufIdx) : otherBuf d = 1 - d := by
  fin_cases d <;> rfl

section
variable {s : State} (hh : s.halted = false)

/-- L1 waits while no refill is asked for (R254). -/
theorem ioAgent_l1_of_waiting (hp : s.ioseq.pos = .l1) (hreq : s.str.refillReq = false) : ioAgent s = s := by
  simp [ioAgent, ioEnabled, hp, hreq]

include hh

/-- L1 goes on at L2 once a refill is asked for (R254). -/
theorem ioAgent_l1_of_asked (hp : s.ioseq.pos = .l1) (hreq : s.str.refillReq = true) : ioAgent s = s.goto .l2 := by
  have he : ioEnabled s = true := by simp [ioEnabled, hh, hp, hreq]
  rw [ioAgent, if_pos he, ioStep, hp, stepL1]

/-- L3 latches the buffer now marked Filling and begins the read (R254). -/
theorem ioAgent_l3 (hp : s.ioseq.pos = .l3) :
    ioAgent s = s.withIo { s.ioseq with tgt := 1 - s.str.role, pos := .rd1 .refill } := by
  rw [← otherBuf_eq]
  exact ioAgent_at hh hp nofun nofun

theorem ioAgent_l5 (hp : s.ioseq.pos = .l5) : ioAgent s = stepL5 s := by
  rw [ioAgent_eq hh hp nofun nofun, ioStep, hp]

/-- At the maximum L5 stops the stream (R255). -/
theorem ioAgent_l5_of_max (hp : s.ioseq.pos = .l5) (hmax : s.str.next + 1 = s.str.max) :
    ioAgent s = (s.withStr { s.str with next := s.str.max, irqEn := false, state := .stopped }).finishIo := by
  rw [ioAgent_l5 hh hp, stepL5, if_pos hmax, hmax]

/-- Before the maximum L5 advances NEXT and returns to L1 (R254). -/
theorem ioAgent_l5_of_more (hp : s.ioseq.pos = .l5) (hmax : s.str.next + 1 ≠ s.str.max) :
    ioAgent s = (s.withStr { s.str with next := s.str.next + 1 }).goto .l1 := by
  rw [ioAgent_l5 hh hp, stepL5, if_neg hmax]

end

/-- Settles O42, line by line. -/
theorem refillLines : Obligations.RefillLines := by
  unfold Obligations.RefillLines
  intro s hh
  refine ⟨fun hp => ?prime0, fun hp => ?prime1, fun hp => ?refill, fun hp => ?p3, ioAgent_l1_of_waiting,
    ioAgent_l1_of_asked hh, fun hp => ?l2, ioAgent_l3 hh, ioAgent_l5_of_max hh, fun hp hmax => ?more⟩
  case prime0 | prime1 | refill => rw [ioAgent_at hh hp nofun nofun]; rfl
  case p3 | l2 => exact ioAgent_at hh hp nofun nofun
  case more => exact ioAgent_l5_of_more hh hp hmax

end Sys2Proof.Machine
end

section
/-! SUPPORT. The drain step (43_streaming.md R253, R257, R261): its whole next state, and the rest of a buffer played
by drain steps one after the other. -/

namespace Sys2Proof.Machine

/-! ## One drain step -/

/-- DRAIN has a step exactly while IRQ_EN = 1, OUT_READY = 1 and HALTED = 0 (R261). -/
theorem drainEnabled_iff (s : State) :
    drainEnabled s = true ↔ s.str.irqEn = true ∧ s.env.outReady = true ∧ s.halted = false := by
  simp [drainEnabled, and_assoc]

/-- A swap glitches where the refill is due, taken or being read (R253, R258). -/
theorem swapGlitches_eq (s : State) :
    swapGlitches s =
      (s.str.refillReq || s.ioseq.pos == .l2 || s.ioseq.pos == .l3 || s.ioseq.pos.inL4) := by
  simp only [swapGlitches, IoPos.refilling, Bool.or_assoc]

theorem advanceCursor_of_last {s : State} (h : s.str.cursor = 511) :
    advanceCursor s =
      (s.withGlitch (s.glitch || swapGlitches s)).withStr
        { s.str with role := 1 - s.str.role, cursor := 0, refillReq := true } := by
  rw [advanceCursor, if_pos h, otherBuf_eq]

theorem advanceCursor_of_more {s : State} (h : s.str.cursor ≠ 511) :
    advanceCursor s = s.withStr { s.str with cursor := s.str.cursor + 1 } :=
  if_neg h

/-- `s` once DRAIN has emitted the byte of the read `r`: what the read leaves of MFAULT and of the count of draws, and
the byte on OUT_BYTE with its strobe. -/
def afterEmit (r : Byte × State) (s : State) : State :=
  { s with
    mfault := r.2.mfault
    env :=
      { s.env with outByte := r.1, outValid := true, emitted := s.env.emitted ++ [r.1], draws := r.2.env.draws } }

theorem emitOut_readCell (a : Nat) (s : State) :
    emitOut (readCell a s).1 (readCell a s).2 = afterEmit (readCell a s) s := by
  rcases readCell_state a s with e | e <;> rw [emitOut, afterEmit, e] <;> rfl

theorem drainAgent_of_enabled {s : State} (he : drainEnabled s = true) :
    drainAgent s = advanceCursor (afterEmit (readCell (cellAddr s.str.role s.str.cursor) s) s) := by
  rw [drainAgent, if_pos he, ← emitOut_readCell]
  rfl

/-- Settles O39: the byte is read and emitted, then the cursor advances or the roles swap. -/
theorem drainStepEffect : Obligations.DrainStepEffect := by
  unfold Obligations.DrainStepEffect
  refine ⟨fun s hirq hready hh => ?enabled, fun s hoff => if_neg (mt (drainEnabled_iff s).1 hoff)⟩
  rw [drainAgent_of_enabled ((drainEnabled_iff s).2 ⟨hirq, hready, hh⟩)]
  generalize hr : readCell (cellAddr s.str.role s.str.cursor) s = r
  refine ⟨r.1, r.2.mfault, r.2.env.draws, fun x hx => ?written, fun hx => ?unwritten, fun hlast => ?swap,
    fun hmore => advanceCursor_of_more hmore⟩
  case written => rw [← hr, readCell_written hx]; exact ⟨rfl, rfl, rfl⟩
  case unwritten => rw [← hr]; exact readCell_mfault_of_unwritten hx
  case swap => rw [← swapGlitches_eq]; exact advanceCursor_of_last hlast

/-! ## Drain steps one after the other -/

/-- A drain step at a written cell emits its byte and keeps MFAULT (R253). -/
theorem drainAgent_of_written {s : State} {b : Byte} (he : drainEnabled s = true)
    (hb : Memory.read s.bufs (cellAddr s.str.role s.str.cursor) = some b) :
    drainAgent s = advanceCursor (emitOut b s) := by
  rw [drainAgent, if_pos he, drainStep, readCell_written hb]

/-- The bytes from the cursor to the end of the transmitting buffer, in order; an unwritten cell counts as 0. -/
def restOfBuffer (s : State) : List Byte :=
  ((List.finRange 512).drop s.str.cursor.val).map fun j => (Memory.read s.bufs (cellAddr s.str.role j)).getD 0

theorem drop_finRange {n i : Nat} (h : i < n) :
    (List.finRange n).drop i = ⟨i, h⟩ :: (List.finRange n).drop (i + 1) := by
  rw [List.drop_eq_getElem_cons (by simpa using h), List.getElem_finRange]
  rfl

/-- The byte at the cursor comes first. -/
theorem restOfBuffer_eq_cons {s : State} {b : Byte}
    (hb : Memory.read s.bufs (cellAddr s.str.role s.str.cursor) = some b) :
    restOfBuffer s =
      b :: ((List.finRange 512).drop (s.str.cursor.val + 1)).map
        fun j => (Memory.read s.bufs (cellAddr s.str.role j)).getD 0 := by
  rw [restOfBuffer, drop_finRange s.str.cursor.isLt, List.map_cons, hb, Option.getD_some]

/-- `n` drain steps from `s` play the rest of the transmitting buffer: the last of them, and no other, swaps. -/
structure PlaysRest (n : Nat) (s : State) : Prop where
  role : ∀ k, k < n → (drainTurns k s).str.role = s.str.role
  swapped : (drainTurns n s).str = { s.str with role := 1 - s.str.role, cursor := 0, refillReq := true }
  emitted : (drainTurns n s).env.emitted = s.env.emitted ++ restOfBuffer s
  bufs : (drainTurns n s).bufs = s.bufs
  mfault : (drainTurns n s).mfault = s.mfault

/-- The last byte swaps the roles (R253). -/
theorem playsRest_of_last {s : State} {b : Byte} (hlast : s.str.cursor = 511)
    (hb : Memory.read s.bufs (cellAddr s.str.role s.str.cursor) = some b)
    (hd : drainAgent s = advanceCursor (emitOut b s)) : PlaysRest 1 s := by
  have hturn : drainTurns 1 s = _ := hd.trans (advanceCursor_of_last (s := emitOut b s) hlast)
  refine ⟨fun k hk => ?role, ?swapped, ?emitted, ?bufs, ?mfault⟩
  case role =>
    obtain rfl : k = 0 := Nat.lt_one_iff.1 hk
    rfl
  all_goals rw [hturn]
  case swapped | bufs | mfault => rfl
  case emitted =>
    rw [restOfBuffer_eq_cons hb, hlast, List.drop_eq_nil_of_le (by simp)]
    rfl

/-- Any other byte is emitted, and the rest is played from the next cursor (R253). -/
theorem PlaysRest.cons {n : Nat} {s : State} {b : Byte} (hmore : s.str.cursor ≠ 511)
    (hb : Memory.read s.bufs (cellAddr s.str.role s.str.cursor) = some b)
    (hd : drainAgent s = (emitOut b s).withStr { s.str with cursor := s.str.cursor + 1 })
    (h : PlaysRest n (drainAgent s)) : PlaysRest (n + 1) s := by
  obtain ⟨hrole, hswapped, hemitted, hbufs, hmfault⟩ := h
  have hnext : (s.str.cursor + 1).val = s.str.cursor.val + 1 :=
    Fin.val_add_one_of_lt (Fin.lt_last_iff_ne_last.2 hmore)
  rw [hd] at hrole hswapped hemitted hbufs hmfault
  refine ⟨fun k hk => ?role, ?swapped, ?emitted, ?bufs, ?mfault⟩
  case role =>
    cases k with
    | zero => rfl
    | succ k => rw [drainTurns, hd]; exact hrole k (Nat.lt_of_succ_lt_succ hk)
  all_goals rw [drainTurns, hd]
  case swapped => exact hswapped
  case bufs => exact hbufs
  case mfault => exact hmfault
  case emitted =>
    rw [hemitted, restOfBuffer_eq_cons hb, restOfBuffer, State.withStr_str, hnext, List.append_cons]
    rfl

/-- From a cursor with the rest of the buffer written, by induction on the bytes after the one at the cursor. -/
theorem playsRest_of_written {n : Nat} {s : State} (hn : s.str.cursor.val + n = 511) (he : drainEnabled s = true)
    (hw : ∀ j : SectorIdx, s.str.cursor ≤ j → ∃ b, Memory.read s.bufs (cellAddr s.str.role j) = some b) :
    PlaysRest (n + 1) s := by
  induction n generalizing s with
  | zero =>
    obtain ⟨b, hb⟩ := hw _ le_rfl
    exact playsRest_of_last (Fin.ext hn) hb (drainAgent_of_written he hb)
  | succ n ih =>
    obtain ⟨b, hb⟩ := hw _ le_rfl
    have hlt : s.str.cursor < Fin.last 511 := Fin.lt_def.2 (show s.str.cursor.val < 511 by omega)
    have hmore : s.str.cursor ≠ 511 := Fin.lt_last_iff_ne_last.1 hlt
    have hnext : (s.str.cursor + 1).val = s.str.cursor.val + 1 := Fin.val_add_one_of_lt hlt
    have hd := (drainAgent_of_written he hb).trans (advanceCursor_of_more (s := emitOut b s) hmore)
    refine PlaysRest.cons hmore hb hd ?_
    rw [hd]
    exact ih (s := (emitOut b s).withStr { s.str with cursor := s.str.cursor + 1 })
      (show (s.str.cursor + 1).val + n = 511 by omega) he
      fun j hj => hw j ((Fin.lt_add_one_iff.2 hlt).le.trans hj)

/-- Settles O40: there are 511 - CURSOR bytes after the one at the cursor. -/
theorem drainPlaysRestOfBuffer : Obligations.DrainPlaysRestOfBuffer := by
  unfold Obligations.DrainPlaysRestOfBuffer
  intro s hirq hready hh hw
  have hcount : 512 - s.str.cursor.val = 511 - s.str.cursor.val + 1 := by omega
  rw [hcount]
  obtain ⟨hrole, hswapped, hemitted, hbufs, hmfault⟩ := playsRest_of_written (n := 511 - s.str.cursor.val) (by omega)
    ((drainEnabled_iff s).2 ⟨hirq, hready, hh⟩) hw
  exact ⟨hrole, hswapped, hemitted, hbufs, hmfault⟩

end Sys2Proof.Machine
end

section
/-! SUPPORT. Everything a step can do to ROLE and to the buffer a refill writes (43_streaming.md R256, R258, R263),
said once, and from it the ownership of the buffers and the swap law. -/

namespace Sys2Proof.Machine

/-! ## IOSEQ -/

/-- A status test does not touch TGT. -/
theorem stepTest_tgt (k : Site) (r : Byte) (s : State) : (stepTest k r s).ioseq.tgt = s.ioseq.tgt := by
  cases k <;> simp only [stepTest] <;> split_ifs <;> rfl

/-- Inside L4 no line writes TGT (R254). -/
theorem ioStep_tgt_of_inL4 {s : State} (h : s.ioseq.pos.inL4 = true) : (ioStep s).ioseq.tgt = s.ioseq.tgt := by
  cases hp : s.ioseq.pos <;> rw [hp] at h <;> simp only [ioStep, hp]
  case send k p =>
    cases p with
    | s8 => simp only [stepSend, stepPoll]; split <;> rfl
    | _ => rfl
  case test k r => exact stepTest_tgt k r s
  case close k p => cases p <;> rfl
  case rd3 => simp only [stepRd3]; split <;> rfl
  case rd1 | rd4 | rd5 => rfl
  all_goals cases h

/-- L4 is READ_SECTOR called for the refill (R258). -/
theorem inL4_eq_inReadFor (p : IoPos) : p.inL4 = p.inReadFor .refill := by
  cases p with
  | send k _ | test k _ | close k _ =>
    cases k with
    | cmd17 c => cases c <;> rfl
    | _ => rfl
  | rd1 c | rd3 c | rd4 c _ | rd5 c _ => cases c <;> rfl
  | _ => rfl

/-- A line of the refill loop is inside L4 or is one of the loop's own. -/
theorem inRefillLoop_cases {p : IoPos} (h : p.inRefillLoop = true) :
    p.inL4 = true ∨ p = .l1 ∨ p = .l2 ∨ p = .l3 ∨ p = .l5 := by
  simpa [IoPos.inRefillLoop, ← inL4_eq_inReadFor, or_assoc] using h

/-- L4 is reached from a line of the refill loop. -/
theorem LineEffect.inRefillLoop_of_inL4 {s t : State} (h : LineEffect s t) (hin : t.ioseq.pos.inL4 = true) :
    s.ioseq.pos.inRefillLoop = true := by
  cases h with
  | goesOn h => rw [← h.line.refill, IoPos.inRefillLoop, ← inL4_eq_inReadFor, hin]; rfl
  | ends h => rw [h.idle] at hin; cases hin
  | fatal | streams | stops => cases hin

/-- L5 leads out of the loop or to its test (R254, R255). -/
theorem stepL5_inL4 (s : State) : (stepL5 s).ioseq.pos.inL4 = false := by
  unfold stepL5; split <;> rfl

/-- L4 is entered at L3 only, which latches the buffer DRAIN does not transmit (R254, R256). -/
theorem ioStep_inL4 {s : State} (hidle : s.ioseq.pos ≠ .idle) (hin : (ioStep s).ioseq.pos.inL4 = true) :
    (s.ioseq.pos.inL4 = true ∧ (ioStep s).ioseq.tgt = s.ioseq.tgt) ∨
      (ioStep s).ioseq.tgt = otherBuf s.str.role := by
  rcases inRefillLoop_cases ((ioStep_effect hidle).inRefillLoop_of_inL4 hin) with h | hp | hp | hp | hp
  · exact .inl ⟨h, ioStep_tgt_of_inL4 h⟩
  · rw [ioStep, hp] at hin; cases hin
  · rw [ioStep, hp] at hin; cases hin
  · rw [ioStep, hp]; exact .inr rfl
  · simp [ioStep, hp, stepL5_inL4] at hin

/-! ## Commands -/

/-- STR_START is accepted only in a stream that has never started (R251). -/
theorem strState_idle_of_preOf {s : State} (h : preOf .strStart s = true) : s.str.state = .idle := by
  by_contra hne
  rw [preOf_strStart_of_not_idle hne] at h
  cases h

/-- An accepted command leaves IOSEQ and ROLE alone, or puts IOSEQ outside L4; only STR_START writes ROLE (R251). -/
theorem actOf_roles {i : Instr} {s : State} (hpre : preOf i s = true) (s' : State) :
    ((actOf i s s').ioseq = s'.ioseq ∧ (actOf i s s').str.role = s'.str.role) ∨
      ((actOf i s s').ioseq.pos.inL4 = false ∧
        ((actOf i s s').str.role = s'.str.role ∨ s.str.state = .idle)) := by
  cases i with
  | strStart => exact .inr ⟨rfl, .inr (strState_idle_of_preOf hpre)⟩
  | xptXfer | bscInit | bscRead | bscWrite => exact .inr ⟨rfl, .inl rfl⟩
  | _ => exact .inl ⟨rfl, rfl⟩

/-- No command touches GLITCH. -/
theorem actOf_glitch (i : Instr) (s0 s : State) : (actOf i s0 s).glitch = s.glitch := by
  cases i <;> rfl

/-! ## Steps -/

/-- Everything a step can do to ROLE, GLITCH and the buffer a refill writes: a line of IOSEQ, the swap, a command that
starts a procedure, the reset event; else nothing. -/
inductive RolesEffect (s t : State) : Prop where
  | same (hio : t.ioseq = s.ioseq) (hrole : t.str.role = s.str.role) (hglitch : t.glitch = s.glitch)
  | line (hrole : t.str.role = s.str.role) (hglitch : t.glitch = s.glitch)
      (hL4 : t.ioseq.pos.inL4 = true →
        (s.ioseq.pos.inL4 = true ∧ t.ioseq.tgt = s.ioseq.tgt) ∨ t.ioseq.tgt = otherBuf s.str.role)
  | swap (hn : s.nextTurn = .drain) (hlast : s.str.cursor = 511) (hio : t.ioseq = s.ioseq)
      (hrole : t.str.role = otherBuf s.str.role) (hglitch : t.glitch = (s.glitch || swapGlitches s))
  | starts (hL4 : t.ioseq.pos.inL4 = false) (hrole : t.str.role = s.str.role ∨ s.str.state = .idle)
  | reset (hn : s.nextTurn = .rstN true) (hio : t.ioseq = IoSeq.reset) (hstr : t.str = Str.reset)

/-- A drain step swaps at byte 511, and else leaves ROLE and GLITCH alone (R253). -/
theorem drainStep_rolesEffect {s : State} (hn : s.nextTurn = .drain) : RolesEffect s (drainStep s.takeTurn) := by
  obtain ⟨-, -, -, hio, -⟩ := drainStep_frame s.takeTurn
  by_cases hlast : s.str.cursor = 511
  · obtain ⟨hstr, hglitch⟩ := drainStep_swap (s := s.takeTurn) hlast
    exact .swap hn hlast hio (by rw [hstr]; rfl) hglitch
  · obtain ⟨hstr, hglitch⟩ := drainStep_advance (s := s.takeTurn) hlast
    exact .same hio (by rw [hstr]; rfl) hglitch

/-- Everything a step can do to ROLE, GLITCH and the buffer a refill writes, by whose turn it is. -/
theorem step_rolesEffect {s t : State} (h : step s = .next t) : RolesEffect s t := by
  rcases step_cases h with ⟨level, hn, rfl⟩ | ⟨_, _, rfl⟩ | ⟨_, _, rfl⟩ | ⟨_, he, rfl⟩ | ⟨hn, _, rfl⟩ |
    ⟨off, bytes, _, rfl⟩ | ⟨off, bytes, v, _, hw⟩ | rfl
  · rcases setRstN_cases level s.takeTurn with ⟨_, e⟩ | ⟨rfl, _, e⟩ <;> rw [e]
    · exact .same rfl rfl rfl
    · exact .reset hn rfl rfl
  · exact .same rfl rfl rfl
  · exact .same rfl rfl rfl
  · obtain ⟨-, -, hglitch, -, -, -, -, -, -, -, -, -, hrole, -⟩ := ioStep_keeps s.takeTurn
    exact .line hrole hglitch (ioStep_inL4 (ioEnabled_running he).2)
  · exact drainStep_rolesEffect hn
  · obtain ⟨hstr, hio, -, -, -, -, -, hglitch⟩ := deliver_frame off bytes s.takeTurn
    exact .same hio (by rw [hstr]; rfl) hglitch
  · rcases busWrite_next hw with ⟨_, _, i, _, hv, rfl⟩ | ⟨_, _, _, rfl⟩ | rfl | ⟨_, _, _, rfl⟩ | rfl
    · obtain ⟨-, -, -, hpre, -⟩ := (verdict_eq_ok _ _ _ _).1 hv
      rcases actOf_roles hpre (s.takeTurn.withErr .ok) with ⟨hio, hrole⟩ | ⟨hL4, hrole⟩
      · exact .same hio hrole (actOf_glitch i _ _)
      · exact .starts hL4 hrole
    all_goals exact .same rfl rfl rfl
  · exact .same rfl rfl rfl

/-! ## Ownership -/

/-- A swap inside L4 is a glitch (R256, R258). -/
theorem swapGlitches_of_inL4 {s : State} (h : s.ioseq.pos.inL4 = true) : swapGlitches s = true := by
  rw [swapGlitches_eq, h, Bool.or_true]

/-- Settles O54: L3 latches the other buffer, and ROLE changes inside L4 only by a swap, which sets GLITCH. -/
theorem ownershipKept : Obligations.OwnershipKept := by
  unfold Obligations.OwnershipKept ownership
  intro s t hown h hclean hin
  cases step_rolesEffect h with
  | same hio hrole hglitch =>
    rw [hio] at hin ⊢
    rw [hrole]
    exact hown (hglitch ▸ hclean) hin
  | line hrole hglitch hL4 =>
    rw [hrole]
    rcases hL4 hin with ⟨hin', htgt⟩ | htgt <;> rw [htgt]
    · exact hown (hglitch ▸ hclean) hin'
    · exact otherBuf_ne s.str.role
  | swap hn hlast hio hrole hglitch =>
    rw [hio] at hin
    rw [hglitch, swapGlitches_of_inL4 hin, Bool.or_true] at hclean
    cases hclean
  | starts hL4 hrole => simp [hL4] at hin
  | reset hn hio hstr => rw [hio] at hin; cases hin

/-! ## The swap law -/

/-- Settles O41: while ACTIVE, of all that a step can do only the swap and the reset event write ROLE. -/
theorem swapLaw : Obligations.SwapLaw := by
  unfold Obligations.SwapLaw
  refine ⟨fun s t h hactive hne => ?writers, fun s hirq hready hh hlast => ?swap⟩
  case writers =>
    cases step_rolesEffect h with
    | same hio hrole hglitch => exact absurd hrole hne
    | line hrole hglitch hL4 => exact absurd hrole hne
    | swap hn hlast hio hrole hglitch => exact .inl ⟨hn, hlast, hrole.trans (otherBuf_eq _)⟩
    | starts hL4 hrole =>
      rcases hrole with hrole | hidle
      · exact absurd hrole hne
      · simp [hactive] at hidle
    | reset hn hio hstr => exact .inr ⟨hn, by rw [hstr]; rfl⟩
  case swap =>
    have hrole : (drainAgent s).str.role = otherBuf s.str.role := by
      rw [drainAgent, if_pos ((drainEnabled_iff s).2 ⟨hirq, hready, hh⟩), (drainStep_swap hlast).1]
    exact ⟨hrole.trans (otherBuf_eq _), hrole ▸ otherBuf_ne _⟩

end Sys2Proof.Machine
end

section
/-! SUPPORT. Everything a step can do to HALTED (10_state.md R46) and to IRQ_EN (R53), said once, and from it the fatal
entry, the halted block and the writers of IRQ_EN (60_exceptions.md R286, R287, R290). -/

namespace Sys2Proof.Machine

/-! ## HALTED -/

/-- Everything a step can do to HALTED: a line of IOSEQ may set it, the reset event clears it. -/
theorem step_halted {s t : State} (h : step s = .next t) :
    t.halted = s.halted ∨ (s.nextTurn = .ioseq ∧ s.halted = false) ∨
      (s.nextTurn = .rstN true ∧ s.env.rstN = false ∧ t.halted = false) := by
  cases step_controlEffect h with
  | same h => exact .inl h.halted
  | line hn hh hidle h => exact .inr (.inl ⟨hn, hh⟩)
  | command w i hn hd hv => exact .inl (actOf_halted i _ _)
  | reset hn hr => exact .inr (.inr ⟨hn, hr, rfl⟩)

/-! ## The fatal entry -/

/-- A turn of IOSEQ passes or is the step at its line. -/
theorem step_ioseq_cases {s t : State} (hn : s.nextTurn = .ioseq) (h : step s = .next t) :
    t = s.takeTurn ∨ t = ioStep s.takeTurn := by
  cases hr : s.env.rstN with
  | false =>
    rw [step_agent_inReset hr (.inr (.inl hn))] at h
    cases h
    exact .inl rfl
  | true =>
    rw [step_ioseq hr hn] at h
    cases h
    exact (ioAgent_cases s.takeTurn).imp id And.right

/-- The lines that detect a fatal error, each with the code it raises (42_storage.md R222 to R224). -/
def detectsFatal (p : IoPos) (c : FatalCode) : Prop :=
  (∃ who r, p = .test (.cmd17 who) r ∧ r ≠ 0 ∧ c = .readCmdRejected) ∨
    (∃ r, p = .test .cmd24 r ∧ r ≠ 0 ∧ c = .writeCmdRejected) ∨ (∃ x, p = .w6 x ∧ dataResponse x = some c)

/-- A step that halts the block is IOSEQ's, at a line that detects a fatal error, and is the fatal entry with that
line's code (60_exceptions.md R286). -/
theorem step_halts {s t : State} (h : step s = .next t) (hs : s.halted = false) (ht : t.halted = true) :
    s.nextTurn = .ioseq ∧ ∃ c, t = raiseFatal c s.takeTurn ∧ detectsFatal s.ioseq.pos c := by
  rcases step_halted h with e | ⟨hn, -⟩ | ⟨-, -, e⟩
  · simp [e, hs] at ht
  · refine ⟨hn, ?_⟩
    rcases step_ioseq_cases hn h with rfl | rfl
    · simp [hs] at ht
    · exact ioStep_halts hs ht
  · simp [e] at ht

/-- Every line that detects a fatal error stands inside a bracket (R286). -/
theorem inBracket_of_detectsFatal {p : IoPos} {c : FatalCode} (h : detectsFatal p c) : p.inBracket = true := by
  rcases h with ⟨_, _, rfl, _⟩ | ⟨_, rfl, _⟩ | ⟨_, rfl, _⟩ <;> rfl

section
variable {s : State} {r : Byte} (hh : s.halted = false)
include hh

theorem ioAgent_test {k : Site} (hp : s.ioseq.pos = .test k r) : ioAgent s = stepTest k r s := by
  rw [ioAgent_eq hh hp nofun nofun, ioStep, hp]

/-- A rejected CMD17 is a fatal error (42_storage.md R222). -/
theorem ioAgent_cmd17_of_rejected {c : ReadFor} (hp : s.ioseq.pos = .test (.cmd17 c) r) (hr : r ≠ 0) :
    ioAgent s = raiseFatal .readCmdRejected s :=
  (ioAgent_test hh hp).trans (if_neg hr)

/-- An accepted CMD17 goes on with the start-token poll (R222). -/
theorem ioAgent_cmd17_of_accepted {c : ReadFor} (hp : s.ioseq.pos = .test (.cmd17 c) r) (hr : r = 0) :
    ioAgent s = s.goto (.rd3 c) :=
  (ioAgent_test hh hp).trans (if_pos hr)

/-- A rejected CMD24 is a fatal error (R223). -/
theorem ioAgent_cmd24_of_rejected (hp : s.ioseq.pos = .test .cmd24 r) (hr : r ≠ 0) :
    ioAgent s = raiseFatal .writeCmdRejected s :=
  (ioAgent_test hh hp).trans (if_neg hr)

/-- An accepted CMD24 goes on with the start-block token (R223). -/
theorem ioAgent_cmd24_of_accepted (hp : s.ioseq.pos = .test .cmd24 r) (hr : r = 0) : ioAgent s = s.goto .w3 :=
  (ioAgent_test hh hp).trans (if_pos hr)

end

/-- Settles O35: the step that halts is the fatal entry at its line, which leaves CS_N as the bracket has it. -/
theorem fatalEntry : Obligations.FatalEntry := by
  unfold Obligations.FatalEntry
  refine ⟨fun s t h hs ht => ?entry, fun s r hh => ⟨fun who hp => ⟨fun hr => ?read, ?readOn⟩,
    fun hp => ⟨fun hr => ?write, ?writeOn⟩⟩⟩
  case entry =>
    obtain ⟨hn, c, rfl, hc⟩ := step_halts h hs ht
    exact ⟨hn, ⟨c, rfl, hc⟩, fun hsel => hsel (inBracket_of_detectsFatal hc)⟩
  case read => rw [ioAgent_cmd17_of_rejected hh hp hr]; exact ⟨rfl, rfl⟩
  case readOn => exact ioAgent_cmd17_of_accepted hh hp
  case write => rw [ioAgent_cmd24_of_rejected hh hp hr]; exact ⟨rfl, rfl⟩
  case writeOn => exact ioAgent_cmd24_of_accepted hh hp

/-! ## The halted block -/

section
variable {s : State} (hh : s.halted = true)
include hh

theorem modAgent_of_halted : modAgent s = s :=
  if_neg (by simp [modEnabled_iff, hh])

theorem ioAgent_of_halted : ioAgent s = s :=
  if_neg fun he => nomatch hh.symm.trans (ioEnabled_running he).1

theorem drainAgent_of_halted : drainAgent s = s :=
  if_neg (by simp [drainEnabled_iff, hh])

/-- Only the reset event leaves the halted state (R287). -/
theorem step_leaves_halted {t : State} (h : step s = .next t) (ht : t.halted = false) :
    s.nextTurn = .rstN true ∧ s.env.rstN = false := by
  rcases step_halted h with e | ⟨-, e⟩ | ⟨hn, hr, -⟩
  · simp [e, hh] at ht
  · simp [hh] at e
  · exact ⟨hn, hr⟩

end

/-- Settles O36, clause by clause; the window read is O45's. -/
theorem haltedBlock : Obligations.HaltedBlock := by
  unfold Obligations.HaltedBlock
  intro s hh
  refine ⟨busWrite_cmd_of_halted hh, modAgent_of_halted hh, ioAgent_of_halted hh, drainAgent_of_halted hh,
    fun _ => rfl, fun off v hlow hhigh => ?windowWrite, fun hbusy hstate d k off b hoff hb => ?windowRead,
    fun b q hq => ?pop, fun t => step_leaves_halted hh⟩
  case windowWrite => exact busWrite_readOnly 4 v (by omega) fun _ _ => windowOpen_write_of_halted hh
  case windowRead => exact (windowWriteReadsBack s d k off hoff hbusy hstate).2 b hb
  case pop => rw [busRead_modout, popModout_of_cons hq]; rfl

/-! ## IRQ_EN -/

/-- A line of IOSEQ keeps IRQ_EN, but for P3, the stop at L5 and a fatal error (43_streaming.md R252, R255). -/
theorem LineEffect.irqEn {s t : State} (h : LineEffect s t) :
    t.str.irqEn = s.str.irqEn ∨ (t.str.irqEn = true ∧ s.ioseq.pos = .p3) ∨
      (t.str.irqEn = false ∧ (s.ioseq.pos = .l5 ∧ t.str.state = .stopped ∨ t.halted = true)) := by
  cases h with
  | goesOn h => exact .inl h.irqEn
  | ends h => exact .inl h.irqEn
  | fatal c => exact .inr (.inr ⟨rfl, .inr rfl⟩)
  | streams h => exact .inr (.inl ⟨rfl, h⟩)
  | stops h => exact .inr (.inr ⟨rfl, .inl ⟨h, rfl⟩⟩)

/-- An accepted command keeps IRQ_EN: STR_START, the only one that writes it, finds it clear (R251). -/
theorem actOf_irqEn {i : Instr} {s : State} (hdrain : drainOnlyWhileActive s) (hpre : preOf i s = true) :
    (actOf i s (s.withErr .ok)).str.irqEn = s.str.irqEn := by
  cases i with
  | strStart =>
    have hoff : s.str.irqEn = false :=
      Bool.eq_false_iff.2 fun hon => nomatch (strState_idle_of_preOf hpre).symm.trans (hdrain.1 hon).1
    exact hoff.symm
  | _ => rfl

/-- Everything a step can do to IRQ_EN: P3 sets it; the stop at L5, a fatal error and the reset event clear it. -/
inductive IrqEnEffect (s t : State) : Prop where
  | same (h : t.str.irqEn = s.str.irqEn)
  | starts (hn : s.nextTurn = .ioseq) (hp : s.ioseq.pos = .p3) (h : t.str.irqEn = true)
  | ends (hn : s.nextTurn = .ioseq) (h : t.str.irqEn = false)
      (hend : s.ioseq.pos = .l5 ∧ t.str.state = .stopped ∨ t.halted = true)
  | reset (hn : s.nextTurn = .rstN true) (hr : s.env.rstN = false) (h : t.str.irqEn = false)

/-- Everything a step can do to IRQ_EN, by what it does to the sequencer. -/
theorem step_irqEnEffect {s t : State} (hdrain : drainOnlyWhileActive s) (h : step s = .next t) :
    IrqEnEffect s t := by
  cases step_controlEffect h with
  | same h => exact .same h.irqEn
  | line hn hh hidle h =>
    rcases h.irqEn with e | ⟨e, hp⟩ | ⟨e, hend⟩
    · exact .same e
    · exact .starts hn hp e
    · exact .ends hn e hend
  | command w i hn hd hv =>
    obtain ⟨-, -, -, hpre, -⟩ := (verdict_eq_ok _ _ _ _).1 hv
    exact .same (actOf_irqEn (s := s.takeTurn) hdrain hpre)
  | reset hn hr => exact .reset hn hr rfl

/-- Settles O43: P3 is the only cause that sets IRQ_EN, the others only clear it. -/
theorem irqEnWriters : Obligations.IrqEnWriters := by
  unfold Obligations.IrqEnWriters
  intro s t hdrain h
  cases step_irqEnEffect hdrain h with
  | same e => exact ⟨fun h0 h1 => by simp [e, h0] at h1, fun h1 h0 => by simp [e, h1] at h0⟩
  | starts hn hp e => exact ⟨fun _ _ => ⟨hn, hp⟩, fun _ h0 => by simp [e] at h0⟩
  | ends hn e hend =>
    refine ⟨fun _ h1 => by simp [e] at h1, fun _ _ => ?_⟩
    exact hend.elim (fun ⟨hp, hst⟩ => .inl ⟨hn, hp, hst⟩) fun ht => .inr (.inl ⟨hn, ht⟩)
  | reset hn hr e => exact ⟨fun _ h1 => by simp [e] at h1, fun _ _ => .inr (.inr ⟨hn, hr⟩)⟩

end Sys2Proof.Machine
end

section
/-! PROOFS. Reset (70_reset_and_hazards.md R320 to R322): what the registers show after it, and the event itself. -/

namespace Sys2Proof.Machine

/-! ## The state after reset -/

/-- Reset leaves every cell of both buffers unwritten (R322). -/
theorem read_reset (a : Nat) : Memory.read State.reset.bufs a = none := rfl

/-- After reset STATUS shows CS_N alone (R322). -/
theorem busRead_status_reset : busRead 0x008 4 State.reset = (0x00002000, State.reset) := by
  obtain ⟨-, hread, -⟩ := registerReads State.reset
  obtain ⟨-, hword, -⟩ := statusBits
  rw [hread, hword]

/-- After reset every readable register but STATUS shows 0, and no read changes the state: MODOUT pops nothing, since
MQ is empty (R322). -/
theorem busRead_register_reset :
    ∀ off ∈ ([0x00C, 0x010, 0x014, 0x018, 0x01C, 0x020, 0x024, 0x028, 0x02C, 0x030, 0x034] : List Offset),
      busRead off 4 State.reset = (0, State.reset) := by
  simp only [List.forall_mem_cons]
  have hmodout : busRead 0x01C 4 State.reset = (0, State.reset) :=
    (busRead_modout State.reset).trans (popModout_of_nil rfl)
  exact ⟨rfl, rfl, rfl, rfl, hmodout, rfl, rfl, rfl, rfl, rfl, rfl, List.forall_mem_nil _⟩

/-- Settles O49: the registers as HOST reads them, the cells, then each row of R62's table by its definition. -/
theorem stateAfterReset : Obligations.StateAfterReset := by
  unfold Obligations.StateAfterReset
  refine ⟨busRead_status_reset, rfl, rfl, rfl, rfl, busRead_register_reset, fun _ _ => read_reset _, ?rows⟩
  case rows => exact ⟨rfl, rfl, rfl, rfl, rfl, rfl, rfl, rfl, rfl, rfl, rfl, rfl, rfl, rfl⟩

/-! ## The reset event -/

/-- The rise of RST_N is the reset event (R320). -/
theorem setRstN_high_of_low {s : State} (hr : s.env.rstN = false) : setRstN true s = resetEvent s := by
  rw [setRstN, if_pos rfl, if_neg (Bool.eq_false_iff.1 hr)]

/-- The step in which RST_N rises (R320). -/
theorem step_reset {s : State} (hr : s.env.rstN = false) (hn : s.nextTurn = .rstN true) :
    step s = .next (resetEvent s.takeTurn) := by
  rw [step_rstN hn, setRstN_high_of_low (takeTurn_rstN s ▸ hr)]

/-- Settles O50: the step is the reset event, and taking the turn writes none of the records (R321). -/
theorem riseIsResetEvent : Obligations.ResetEvent := by
  unfold Obligations.ResetEvent
  intro s hr hn
  have hstep : step s = .next (resetEvent s.takeTurn) := step_reset hr hn
  exact ⟨hstep, rfl, rfl, rfl⟩

end Sys2Proof.Machine
end
